-- ==== Sys2Proof/Word.lean ====
section
/-! DEFINITION. The plain widths of the hardware (00_scope.md R8): a Byte, and the 32-bit value one register access or
one command carries. -/

namespace Sys2Proof

/-- A Byte: an unsigned 8-bit value (00_scope.md R8). -/
abbrev Byte := BitVec 8

/-- The 32 bits of one register word or one command word (20_memory.md R34, 30_encoding.md R49). The spec's own
"Word", a sequence of four Bytes, is `Machine.Column`. -/
abbrev Word32 := BitVec 32

end Sys2Proof
end

