-- ==== Sys2Proof/Machine/Block.lean ====
section
/-! DEFINITION. Columns and Blocks, their byte layout and the packing of a column into a register word
(00_scope.md R9; 20_memory.md R31, R32; 40_primitives.md R59 to R61). -/

namespace Sys2Proof.Machine

/-- One column of a Block: the spec's "Word", four Bytes, row 0 first (00_scope.md R8, R9). -/
@[ext] structure Column where
  r0 : Byte
  r1 : Byte
  r2 : Byte
  r3 : Byte
deriving DecidableEq, Repr

/-- A Block: 16 Bytes, held as four columns (40_primitives.md R59; 00_scope.md R9). -/
@[ext] structure Block where
  c0 : Column
  c1 : Column
  c2 : Column
  c3 : Column
deriving DecidableEq, Repr

/-- Element `r` of a column: the byte in row `r`. -/
def Column.row (w : Column) (r : Fin 4) : Byte :=
  match r with
  | 0 => w.r0
  | 1 => w.r1
  | 2 => w.r2
  | 3 => w.r3

/-- The column with byte `f r` in row `r`. -/
def Column.ofRows (f : Fin 4 → Byte) : Column := ⟨f 0, f 1, f 2, f 3⟩

/-- Every byte of a column passed through `f`. -/
def Column.mapRows (f : Byte → Byte) (w : Column) : Column := .ofRows fun r => f (w.row r)

/-- Bytewise exclusive-or of two columns. -/
def Column.xor (w x : Column) : Column := .ofRows fun r => w.row r ^^^ x.row r

/-- A column as a register word, big-endian: row 0 in bits [31:24], row 3 in bits [7:0] (20_memory.md R32). -/
def Column.pack (w : Column) : Word32 :=
  w.r0.setWidth 32 <<< 24 ||| w.r1.setWidth 32 <<< 16 ||| w.r2.setWidth 32 <<< 8 ||| w.r3.setWidth 32

/-- The column a register word carries: row `j` is `v[31-8j : 24-8j]` (20_memory.md R32). -/
def Column.unpack (v : Word32) : Column := .ofRows fun j => v.extractLsb' (24 - 8 * j.val) 8

/-- `col(B, c)` (00_scope.md R9). -/
def Block.col (b : Block) (c : Fin 4) : Column :=
  match c with
  | 0 => b.c0
  | 1 => b.c1
  | 2 => b.c2
  | 3 => b.c3

/-- The Block whose column `c` is `f c`. -/
def Block.ofCols (f : Fin 4 → Column) : Block := ⟨f 0, f 1, f 2, f 3⟩

/-- `B[r, c]`: the byte in row `r` of column `c` (00_scope.md R9). -/
def Block.at (b : Block) (r c : Fin 4) : Byte := (b.col c).row r

/-- `B[k]`: flat byte `k`, in row `k % 4` of column `k / 4` (20_memory.md R31). -/
def Block.byte (b : Block) (k : Fin 16) : Byte := b.at ⟨k.val % 4, by omega⟩ ⟨k.val / 4, by omega⟩

/-- The Block whose flat byte `k` is `f k` (40_primitives.md R61). -/
def Block.ofBytes (f : Nat → Byte) : Block := .ofCols fun c => .ofRows fun r => f (4 * c.val + r.val)

/-- The Block a flat hex string names, B[0] first (00_scope.md R9). -/
def Block.ofHex (v : BitVec 128) : Block := .ofBytes fun k => v.extractLsb' (120 - 8 * k) 8

/-- The Block with column `c` replaced by `w`. -/
def Block.setCol (b : Block) (c : Fin 4) (w : Column) : Block :=
  match c with
  | 0 => { b with c0 := w }
  | 1 => { b with c1 := w }
  | 2 => { b with c2 := w }
  | 3 => { b with c3 := w }

/-- Every column of a Block passed through `f`. -/
def Block.mapCols (f : Column → Column) (b : Block) : Block := .ofCols fun c => f (b.col c)

/-- Block XOR: bytewise exclusive-or (40_primitives.md R60). -/
def Block.xor (a b : Block) : Block := .ofCols fun c => (a.col c).xor (b.col c)

/-- The all-zero Block, `0^16` (40_primitives.md R60). -/
def Block.zero : Block := .ofBytes fun _ => 0

end Sys2Proof.Machine
end

