-- ==== Sys2Proof/Machine/Galois.lean ====
section
/-! DEFINITION. GF(2^8) arithmetic and the S-box (40_primitives.md R65 to R71). -/

namespace Sys2Proof.Machine

/-- Multiplication by 0x02 in GF(2^8), reduced by 0x1B when bit 7 shifts out (40_primitives.md R65). -/
def xtime (a : Byte) : Byte := (a <<< 1) ^^^ (if a.getLsbD 7 then 0x1B#8 else 0x00#8)

/-- One turn of the multiplier's loop, on the pair (accumulator, multiplicand), for bit `i` of the multiplier `b`
(40_primitives.md R66). -/
def gmulStep (b : Byte) (pa : Byte × Byte) (i : Nat) : Byte × Byte :=
  (if b.getLsbD i then pa.1 ^^^ pa.2 else pa.1, xtime pa.2)

/-- The product of `a` (multiplicand) and `b` (multiplier) in GF(2^8) modulo 0x11B (40_primitives.md R66). -/
def gmul (a b : Byte) : Byte := ([0, 1, 2, 3, 4, 5, 6, 7].foldl (gmulStep b) (0, a)).1

/-- The multiplicative inverse, 0 for 0, by the closed form a^254 = a^2 * a^4 * ... * a^128 (40_primitives.md R68;
log entry 12). -/
def ginv (a : Byte) : Byte :=
  let a2 := gmul a a
  let a4 := gmul a2 a2
  let a8 := gmul a4 a4
  let a16 := gmul a8 a8
  let a32 := gmul a16 a16
  let a64 := gmul a32 a32
  let a128 := gmul a64 a64
  gmul (gmul (gmul (gmul (gmul (gmul a2 a4) a8) a16) a32) a64) a128

/-- Rotate a Byte left by `n` bits, 0 ≤ n ≤ 8 (40_primitives.md R69). -/
def rotl8 (b : Byte) (n : Nat) : Byte := (b <<< n) ||| (b >>> (8 - n))

/-- The affine transform of the S-box (40_primitives.md R69). -/
def affine (b : Byte) : Byte := b ^^^ rotl8 b 1 ^^^ rotl8 b 2 ^^^ rotl8 b 3 ^^^ rotl8 b 4 ^^^ 0x63

/-- Row `h_` of the S-box table: its sixteen entries in order, the first in the highest byte (40_primitives.md R71). -/
def sboxRow (h : Nat) : BitVec 128 :=
  match h with
  | 0x0 => 0x637c777bf26b6fc53001672bfed7ab76
  | 0x1 => 0xca82c97dfa5947f0add4a2af9ca472c0
  | 0x2 => 0xb7fd9326363ff7cc34a5e5f171d83115
  | 0x3 => 0x04c723c31896059a071280e2eb27b275
  | 0x4 => 0x09832c1a1b6e5aa0523bd6b329e32f84
  | 0x5 => 0x53d100ed20fcb15b6acbbe394a4c58cf
  | 0x6 => 0xd0efaafb434d338545f9027f503c9fa8
  | 0x7 => 0x51a3408f929d38f5bcb6da2110fff3d2
  | 0x8 => 0xcd0c13ec5f974417c4a77e3d645d1973
  | 0x9 => 0x60814fdc222a908846eeb814de5e0bdb
  | 0xa => 0xe0323a0a4906245cc2d3ac629195e479
  | 0xb => 0xe7c8376d8dd54ea96c56f4ea657aae08
  | 0xc => 0xba78252e1ca6b4c6e8dd741f4bbd8b8a
  | 0xd => 0x703eb5664803f60e613557b986c11d9e
  | 0xe => 0xe1f8981169d98e949b1e87e9ce5528df
  | _ => 0x8ca1890dbfe6426841992d0fb054bb16

/-- The S-box as a 256-entry ROM: `sbox(0xhl)` is entry `l` of row `h` (40_primitives.md R71). -/
def sboxRom (x : Byte) : Byte := (sboxRow (x.toNat / 16)).extractLsb' (8 * (15 - x.toNat % 16)) 8

/-- The S-box as combinational logic: the inverse, then the affine transform (40_primitives.md R70). -/
def sboxComb (x : Byte) : Byte := affine (ginv x)

/-- SBOX_IMPL: how an implementation builds its S-box; OPEN and not observable (00_scope.md R7). -/
inductive SboxImpl where
  | rom
  | combinational
deriving DecidableEq, Repr

/-- The S-box under either value of SBOX_IMPL. -/
def sboxOf (impl : SboxImpl) (x : Byte) : Byte :=
  match impl with
  | .rom => sboxRom x
  | .combinational => sboxComb x

/-- The S-box of the core's datapaths: the table of 40_primitives.md R71 (log entry 6). -/
def sbox (x : Byte) : Byte := sboxOf .rom x

end Sys2Proof.Machine
end

