-- ==== Sys2Proof/Machine/KeySchedule.lean ====
section
/-! DEFINITION. The key-schedule functions (41_key_expander.md R75 to R81). A round key's Word `j` is its column `j`,
row 0 the highest-order byte (R75). -/

namespace Sys2Proof.Machine

/-- RotWord: the four bytes rotated left by one position (41_key_expander.md R76). -/
def rotWord (w : Column) : Column := ⟨w.r1, w.r2, w.r3, w.r0⟩

/-- SubWord: each byte through the S-box (41_key_expander.md R77). -/
def subWord (w : Column) : Column := w.mapRows sbox

/-- The round constant of round `i`, for i in 1..10 (41_key_expander.md R78). No command evaluates it outside 1..10;
the value at 0 carries no meaning (log entry 13). -/
def rcon : Nat → Byte
  | 0 => 0x01
  | 1 => 0x01
  | i + 2 => xtime (rcon (i + 1))

/-- KeyNext: round key `i` from the previous round key `p`, for i in 1..10 (41_key_expander.md R79). -/
def keyNext (p : Block) (i : Nat) : Block :=
  let t := subWord (rotWord (p.col 3))
  let t := { t with r0 := t.r0 ^^^ rcon i }
  let n0 := t.xor (p.col 0)
  let n1 := n0.xor (p.col 1)
  let n2 := n1.xor (p.col 2)
  let n3 := n2.xor (p.col 3)
  ⟨n0, n1, n2, n3⟩

/-- KeyIter: the cipher key, then round key after round key (41_key_expander.md R79). -/
def keyIter (k : Block) : Nat → Block
  | 0 => k
  | i + 1 => keyNext (keyIter k i) (i + 1)

/-- KeyExpand: round keys 1 to 10 in order, round key i at index i - 1 (41_key_expander.md R80, R81). -/
def keyExpand (k : Block) : Vector Block 10 := Vector.ofFn fun i => keyIter k (i.val + 1)

end Sys2Proof.Machine
end

