-- ==== Sys2Proof/Machine/Rounds.lean ====
section
/-! DEFINITION. The round stages and the two rounds, as pure functions of Blocks (42_round_pipeline.md R86 to R91). -/

namespace Sys2Proof.Machine

/-- SubBytes (42_round_pipeline.md R86). -/
def subBytes (s : Block) : Block := s.mapCols (Column.mapRows sbox)

/-- ShiftRows: row `r` rotated left by `r` positions (42_round_pipeline.md R87). -/
def shiftRows (s : Block) : Block := .ofCols fun c => .ofRows fun r => s.at r (c + r)

/-- MixColumns on one column (42_round_pipeline.md R88). -/
def mixColumn (a : Column) : Column where
  r0 := gmul a.r0 2 ^^^ gmul a.r1 3 ^^^ a.r2 ^^^ a.r3
  r1 := a.r0 ^^^ gmul a.r1 2 ^^^ gmul a.r2 3 ^^^ a.r3
  r2 := a.r0 ^^^ a.r1 ^^^ gmul a.r2 2 ^^^ gmul a.r3 3
  r3 := gmul a.r0 3 ^^^ a.r1 ^^^ a.r2 ^^^ gmul a.r3 2

/-- MixColumns (42_round_pipeline.md R88). -/
def mixColumns (s : Block) : Block := s.mapCols mixColumn

/-- AddRoundKey (42_round_pipeline.md R89). -/
def addRoundKey (s k : Block) : Block := s.xor k

/-- FullRound (42_round_pipeline.md R90). -/
def fullRound (s k : Block) : Block := addRoundKey (mixColumns (shiftRows (subBytes s))) k

/-- FinalRound: no column mixing (42_round_pipeline.md R91). -/
def finalRound (s k : Block) : Block := addRoundKey (shiftRows (subBytes s)) k

end Sys2Proof.Machine
end

