-- ==== Sys2Proof/Machine/Cipher.lean ====
section
/-! DEFINITION. The cipher function, and the two ways the engine runs it: with a freshly constructed key expander, and
with a precomputed schedule (43_encryption_engine.md R98 to R100). -/

namespace Sys2Proof.Machine

/-- The numbers of the full rounds, 1 to 9 (43_encryption_engine.md R98). -/
def fullRoundNumbers : List Nat := [1, 2, 3, 4, 5, 6, 7, 8, 9]

/-- Encrypt(P, K), AES-128 (43_encryption_engine.md R98). -/
def encryptBlock (p k : Block) : Block :=
  let s := fullRoundNumbers.foldl (fun s i => fullRound s (keyIter k i)) (addRoundKey p k)
  finalRound s (keyIter k 10)

/-- The loop of ENCRYPT, on the pair (state, current round key): one KeyNext and one full round a turn
(43_encryption_engine.md R99). -/
def encryptRounds (p k : Block) : Block × Block :=
  fullRoundNumbers.foldl
    (fun sr i =>
      let r := keyNext sr.2 i
      (fullRound sr.1 r, r))
    (addRoundKey p k, k)

/-- ENCRYPT's datapath: the ciphertext and the last round key (43_encryption_engine.md R99). -/
def encryptFresh (p k : Block) : Block × Block :=
  let sr := encryptRounds p k
  let r := keyNext sr.2 10
  (finalRound sr.1 r, r)

/-- The schedule entries of the full rounds: SCHED[1] to SCHED[9], at indices 0 to 8 (43_encryption_engine.md R100). -/
def fullRoundIndices : List (Fin 10) := [0, 1, 2, 3, 4, 5, 6, 7, 8]

/-- ENCRYPT_SCHED's datapath: the cipher with round key i read from a schedule (43_encryption_engine.md R100). -/
def encryptWith (p k : Block) (sched : Vector Block 10) : Block :=
  let s := fullRoundIndices.foldl (fun s i => fullRound s sched[i]) (addRoundKey p k)
  finalRound s sched[9]

end Sys2Proof.Machine
end

