-- ==== Sys2Proof/Syntax.lean ====
section
/-! DEFINITION. The syntax of the AESC command set, version 1 (30_encoding.md R52): one constructor for each of the
14 rows of spec/opcode_table.json, in the table's order. -/

namespace Sys2Proof

/-- The round-key operand of ADD_ROUND_KEY, FULL_ROUND and FINAL_ROUND (30_encoding.md R49, R51, R57): the forms
`key` (KSEL = 0), `rk` (KSEL = 1) and `sched[idx]` (KSEL = 2). KSEL = 3 is reserved and has no form. -/
inductive KeySel where
  | key
  | rk
  | sched (idx : BitVec 4)
deriving DecidableEq, Repr

/-- A command (30_encoding.md R52). -/
inductive Instr where
  | nop
  | gfMul (a b : Byte)
  | sbox (a : Byte)
  | kxInit
  | kxNext
  | kxExpand
  | subBytes
  | shiftRows
  | mixColumns
  | addRoundKey (ks : KeySel)
  | fullRound (ks : KeySel)
  | finalRound (ks : KeySel)
  | encrypt
  | encryptSched
deriving DecidableEq, Repr

/-- Why the decoder refuses a word (30_encoding.md R53): an opcode with no command, or a reserved field value. -/
inductive Reject where
  | illegalOpcode
  | reservedField
deriving DecidableEq, Repr

end Sys2Proof
end

