-- ==== Sys2Proof/WellFormed.lean ====
section
/-! DEFINITION. Which instructions are well formed. The one field of the syntax that can hold a reserved value is the
schedule index, which must be 1..10 (30_encoding.md R53, R55). -/

namespace Sys2Proof

/-- A key operand is well formed iff a schedule index is one of 1..10 (30_encoding.md R51, R55). -/
def KeySel.wellFormed : KeySel → Bool
  | .key => true
  | .rk => true
  | .sched idx => 1 ≤ idx.toNat && idx.toNat ≤ 10

/-- An instruction is well formed iff its key operand, if it has one, is. -/
def Instr.wellFormed : Instr → Bool
  | .nop => true
  | .gfMul _ _ => true
  | .sbox _ => true
  | .kxInit => true
  | .kxNext => true
  | .kxExpand => true
  | .subBytes => true
  | .shiftRows => true
  | .mixColumns => true
  | .addRoundKey ks => ks.wellFormed
  | .fullRound ks => ks.wellFormed
  | .finalRound ks => ks.wellFormed
  | .encrypt => true
  | .encryptSched => true

/-- `Instr.wellFormed` as a proposition that `decide` can settle. -/
abbrev Instr.WellFormed (i : Instr) : Prop := i.wellFormed = true

end Sys2Proof
end

