-- ==== Sys2Proof/Decode.lean ====
section
/-! DEFINITION. The command format, the decoder, and the encoder (30_encoding.md R49 to R57). A command arrives as one
32-bit bus word, so the decoder reads a word and no byte order is involved. -/

namespace Sys2Proof

/-! The fields of a command word (30_encoding.md R49). -/

/-- OP, bits [7:0]. -/
def opOf (v : Word32) : BitVec 8 := v.extractLsb' 0 8

/-- IDX, bits [11:8]. -/
def idxOf (v : Word32) : BitVec 4 := v.extractLsb' 8 4

/-- KSEL, bits [13:12]. -/
def kselOf (v : Word32) : BitVec 2 := v.extractLsb' 12 2

/-- RSV, bits [15:14]. -/
def rsvOf (v : Word32) : BitVec 2 := v.extractLsb' 14 2

/-- A, bits [23:16]. -/
def aOf (v : Word32) : Byte := v.extractLsb' 16 8

/-- B, bits [31:24]. -/
def bOf (v : Word32) : Byte := v.extractLsb' 24 8

/-! The opcode map (30_encoding.md R52). -/

/-- The 14 assigned opcodes. -/
def assignedOpcodes : List (BitVec 8) :=
  [0x00, 0x01, 0x02, 0x10, 0x11, 0x12, 0x20, 0x21, 0x22, 0x23, 0x24, 0x25, 0x30, 0x31]

/-- The opcodes whose commands take a round-key operand (KSEL, IDX). -/
def keyedOpcodes : List (BitVec 8) := [0x23, 0x24, 0x25]

/-- The key operand that KSEL and IDX name, once KSEL = 3 is ruled out (30_encoding.md R51). -/
def keySelOf (ksel : BitVec 2) (idx : BitVec 4) : KeySel :=
  if ksel = 0 then .key else if ksel = 1 then .rk else .sched idx

/-- The command of a keyed opcode. -/
def keyedInstr (op : BitVec 8) (ks : KeySel) : Instr :=
  if op = 0x23 then .addRoundKey ks
  else if op = 0x24 then .fullRound ks
  else .finalRound ks

/-- The command of an assigned opcode that takes no key operand. -/
def plainInstr (op : BitVec 8) (a b : Byte) : Instr :=
  if op = 0x00 then .nop
  else if op = 0x01 then .gfMul a b
  else if op = 0x02 then .sbox a
  else if op = 0x10 then .kxInit
  else if op = 0x11 then .kxNext
  else if op = 0x12 then .kxExpand
  else if op = 0x20 then .subBytes
  else if op = 0x21 then .shiftRows
  else if op = 0x22 then .mixColumns
  else if op = 0x30 then .encrypt
  else .encryptSched

/-- Decoding, with the checks in the order of 30_encoding.md R53. It is total: every word is one command, or is refused
as an illegal opcode, or is refused for a reserved field. -/
def decode (v : Word32) : Except Reject Instr :=
  if opOf v ∉ assignedOpcodes then .error .illegalOpcode
  else if rsvOf v ≠ 0 then .error .reservedField
  else if opOf v ≠ 0x01 ∧ opOf v ≠ 0x02 ∧ aOf v ≠ 0 then .error .reservedField
  else if opOf v ≠ 0x01 ∧ bOf v ≠ 0 then .error .reservedField
  else if opOf v ∈ keyedOpcodes then
    if kselOf v = 3 then .error .reservedField
    else if kselOf v = 2 ∧ ¬ (1 ≤ (idxOf v).toNat ∧ (idxOf v).toNat ≤ 10) then .error .reservedField
    else if kselOf v ≠ 2 ∧ idxOf v ≠ 0 then .error .reservedField
    else .ok (keyedInstr (opOf v) (keySelOf (kselOf v) (idxOf v)))
  else if kselOf v ≠ 0 ∨ idxOf v ≠ 0 then .error .reservedField
  else .ok (plainInstr (opOf v) (aOf v) (bOf v))

/-! The encoder (30_encoding.md R57: `OP | IDX << 8 | KSEL << 12 | A << 16 | B << 24`). -/

/-- The command word with the given fields and RSV = 0 (30_encoding.md R57). -/
def assemble (op : BitVec 8) (idx : BitVec 4) (ksel : BitVec 2) (a b : Byte) : Word32 :=
  op.setWidth 32 ||| idx.setWidth 32 <<< 8 ||| ksel.setWidth 32 <<< 12 ||| a.setWidth 32 <<< 16 |||
    b.setWidth 32 <<< 24

/-- The KSEL of a key operand (30_encoding.md R57). -/
def KeySel.kselBits : KeySel → BitVec 2
  | .key => 0
  | .rk => 1
  | .sched _ => 2

/-- The IDX of a key operand (30_encoding.md R57). -/
def KeySel.idxBits : KeySel → BitVec 4
  | .key => 0
  | .rk => 0
  | .sched idx => idx

/-- The word of a command that takes a key operand. -/
def assembleKeyed (op : BitVec 8) (ks : KeySel) : Word32 := assemble op ks.idxBits ks.kselBits 0 0

/-- The command word of an instruction (30_encoding.md R52, R57). -/
def encode : Instr → Word32
  | .nop => assemble 0x00 0 0 0 0
  | .gfMul a b => assemble 0x01 0 0 a b
  | .sbox a => assemble 0x02 0 0 a 0
  | .kxInit => assemble 0x10 0 0 0 0
  | .kxNext => assemble 0x11 0 0 0 0
  | .kxExpand => assemble 0x12 0 0 0 0
  | .subBytes => assemble 0x20 0 0 0 0
  | .shiftRows => assemble 0x21 0 0 0 0
  | .mixColumns => assemble 0x22 0 0 0 0
  | .addRoundKey ks => assembleKeyed 0x23 ks
  | .fullRound ks => assembleKeyed 0x24 ks
  | .finalRound ks => assembleKeyed 0x25 ks
  | .encrypt => assemble 0x30 0 0 0 0
  | .encryptSched => assemble 0x31 0 0 0 0

/-- The match of an instruction's row in spec/opcode_table.json. -/
def Instr.rowMatch : Instr → Word32
  | .nop => 0x00000000
  | .gfMul _ _ => 0x00000001
  | .sbox _ => 0x00000002
  | .kxInit => 0x00000010
  | .kxNext => 0x00000011
  | .kxExpand => 0x00000012
  | .subBytes => 0x00000020
  | .shiftRows => 0x00000021
  | .mixColumns => 0x00000022
  | .addRoundKey _ => 0x00000023
  | .fullRound _ => 0x00000024
  | .finalRound _ => 0x00000025
  | .encrypt => 0x00000030
  | .encryptSched => 0x00000031

/-- The mask of an instruction's row in spec/opcode_table.json: the bits the row fixes. -/
def Instr.rowMask : Instr → Word32
  | .nop => 0xFFFFFFFF
  | .gfMul _ _ => 0x0000FFFF
  | .sbox _ => 0xFF00FFFF
  | .kxInit => 0xFFFFFFFF
  | .kxNext => 0xFFFFFFFF
  | .kxExpand => 0xFFFFFFFF
  | .subBytes => 0xFFFFFFFF
  | .shiftRows => 0xFFFFFFFF
  | .mixColumns => 0xFFFFFFFF
  | .addRoundKey _ => 0xFFFFC0FF
  | .fullRound _ => 0xFFFFC0FF
  | .finalRound _ => 0xFFFFC0FF
  | .encrypt => 0xFFFFFFFF
  | .encryptSched => 0xFFFFFFFF

/-- The command word that the low `nbits` bits of `w` make, with every higher bit 0. -/
def tableWord (nbits w : Nat) : Word32 := BitVec.ofNat 32 (w % 2 ^ nbits)

/-- The instruction the decoder reads from a table word: none where it refuses the word. -/
def decodeTableWord (nbits w : Nat) : Option Instr :=
  match decode (tableWord nbits w) with
  | .ok i => some i
  | .error _ => none

end Sys2Proof
end

