-- ==== Sys2Proof/Config.lean ====
section
/-! DEFINITION. What the platform or the implementation chooses (00_scope.md R7), and the free values: constants with
no body, so that no proof can see what they are. -/

namespace Sys2Proof.Config

/-- The 0x100-byte page of the host's address space that the register window occupies; OPEN (00_scope.md R7,
92_eei_decisions.md D2; log entry 4). -/
opaque aescBasePage : Nat

/-- AESC_BASE, the byte address of the register window: any multiple of 0x100 (00_scope.md R7). -/
def aescBase : Nat := 0x100 * aescBasePage

/-- CMD_LATENCY, how many implementation cycles a command holds STATUS.BUSY = 1; OPEN. No rule's result depends on
it, and the untimed model never reads it (00_scope.md R7, 70_reset_and_hazards.md R129; log entry 5). -/
opaque cmdLatency : Nat

/-- FREE VALUE. Byte `k` of the data registers' contents after the reset numbered `n`: KEY is bytes 0..15, STATE 16..31,
RK 32..47, SCHED[1..10] 48..207, RESULT 208. The spec leaves these contents unspecified and forbids taking them as
zero (70_reset_and_hazards.md R120; log entry 2). -/
opaque resetByte (n k : Nat) : Byte

/-- FREE VALUE. The word a read returns where the spec gives it no defined value: the free value numbered `n`
(20_memory.md R36, R38; 93_implementation_defined.md items 3 and 4; log entry 3). -/
opaque freeReadWord (n : Nat) : Word32

end Sys2Proof.Config
end

