-- ==== Sys2Proof/Machine/Registers.lean ====
section
/-! DEFINITION. The architectural state of the core: exactly the table of 10_state.md R13, with its reset values
(70_reset_and_hazards.md R120). -/

namespace Sys2Proof.Machine

/-- FCODE: the recorded fault (60_exceptions.md R105). Codes 9..15 are reserved and never recorded, so they have no
name (log entry 18). -/
inductive FaultCode where
  | none
  | illegalOpcode
  | reservedField
  | unwrittenOperand
  | noSchedule
  | kxOverrun
  | busError
  | unwrittenRead
  | busyViolation
deriving DecidableEq, Repr

/-- The four bits of FCODE (60_exceptions.md R105). -/
def FaultCode.bits : FaultCode → BitVec 4
  | .none => 0
  | .illegalOpcode => 1
  | .reservedField => 2
  | .unwrittenOperand => 3
  | .noSchedule => 4
  | .kxOverrun => 5
  | .busError => 6
  | .unwrittenRead => 7
  | .busyViolation => 8

/-- The registers of the core (10_state.md R13). -/
structure Registers where
  /-- KEY, the cipher key (R15). -/
  key : Block
  /-- KEY_WV: bit c says that KEY.w[c] has been written since reset (R21). -/
  keyWv : BitVec 4
  /-- STATE, the cipher state (R16). -/
  state : Block
  /-- STATE_WV: bit c says that STATE.w[c] has been written since reset (R21). -/
  stateWv : BitVec 4
  /-- RK, the key expander's current round key (R17). -/
  rk : Block
  /-- RK_VALID: RK holds a value (R21). -/
  rkValid : Bool
  /-- KX_POS: how many round keys the expander has produced, 0..10 (R18). -/
  kxPos : BitVec 4
  /-- SCHED[1..10], the batch schedule: SCHED[i] at index i - 1 (R19). -/
  sched : Vector Block 10
  /-- SCHED_VALID: SCHED holds the schedule of KEY (R21). -/
  schedValid : Bool
  /-- RESULT, the byte result of GF_MUL or SBOX (R20). -/
  result : Byte
  /-- RESULT_VALID: RESULT holds a value (R21). -/
  resultValid : Bool
  /-- FAULT, the sticky fault flag (R23). -/
  fault : Bool
  /-- FCODE, the code of the first fault (R23). -/
  fcode : FaultCode
  /-- FINFO, what the first fault recorded (R24). -/
  finfo : Word32
  /-- BUSY: a command is in progress; never set in the untimed model (R23, R27). -/
  busy : Bool
deriving DecidableEq, Repr

/-- The Block of free bytes that a data register holds after reset `n`, its bytes numbered from `base`
(70_reset_and_hazards.md R120; log entry 2). -/
def unwrittenBlock (n base : Nat) : Block := .ofBytes fun k => Config.resetByte n (base + k)

/-- The registers after the reset numbered `n` (70_reset_and_hazards.md R120): every control and status field 0, and
the data registers' contents unspecified. -/
def Registers.reset (n : Nat) : Registers where
  key := unwrittenBlock n 0
  keyWv := 0
  state := unwrittenBlock n 16
  stateWv := 0
  rk := unwrittenBlock n 32
  rkValid := false
  kxPos := 0
  sched := Vector.ofFn fun i => unwrittenBlock n (48 + 16 * i.val)
  schedValid := false
  result := Config.resetByte n 208
  resultValid := false
  fault := false
  fcode := .none
  finfo := 0
  busy := false

end Sys2Proof.Machine
end

