-- ==== Sys2Proof/Machine/Flags.lean ====
section
/-! DEFINITION. The valid bits and the STATUS word (10_state.md R21, R23). The core has no other flag (R25). -/

namespace Sys2Proof.Machine

/-- The valid-bit mask of word `c` of a Block register (10_state.md R21). -/
def wordBit (c : Fin 4) : BitVec 4 := 1#4 <<< c.val

/-- `KEY_WV = 1111`: every word of KEY has been written. -/
def Registers.keyFull (r : Registers) : Bool := r.keyWv == 0b1111#4

/-- `STATE_WV = 1111`: every word of STATE has been written. -/
def Registers.stateFull (r : Registers) : Bool := r.stateWv == 0b1111#4

/-- One bit as a 32-bit number. -/
def flag32 (b : Bool) : Word32 := (BitVec.ofBool b).setWidth 32

/-- STATUS (10_state.md R23). -/
def Registers.status (r : Registers) : Word32 :=
  flag32 r.busy <<< 20 ||| r.stateWv.setWidth 32 <<< 16 ||| r.keyWv.setWidth 32 <<< 12 |||
    flag32 r.resultValid <<< 11 ||| flag32 r.schedValid <<< 10 ||| flag32 r.rkValid <<< 9 |||
    r.kxPos.setWidth 32 <<< 5 ||| r.fcode.bits.setWidth 32 <<< 1 ||| flag32 r.fault

end Sys2Proof.Machine
end

