-- ==== Sys2Proof/Machine/State.lean ====
section
/-! DEFINITION. The machine's state: the core's registers, and beside them what the model keeps of the host (its
transactions, the word last returned to it), the ghost bit of 70_reset_and_hazards.md R121 and the number of the next
free value. -/

namespace Sys2Proof.Machine

/-- What the host does at the core's port: one access of `size` bytes at byte offset `off` of the register window
(20_memory.md R34), or reset (70_reset_and_hazards.md R119). A host address outside the window does not reach the core
(R29), so an offset has 8 bits. -/
inductive Transaction where
  /-- `MemRead(AESC_BASE + off, size)`. -/
  | read (off : BitVec 8) (size : Nat)
  /-- `MemWrite(AESC_BASE + off, size, v)`. Only a 4-byte write is legal, so only its 32 bits are kept (log entry 16). -/
  | write (off : BitVec 8) (size : Nat) (v : Word32)
  /-- The reset input is asserted and released. -/
  | reset
deriving DecidableEq, Repr

/-- A stop of the MODEL. It has no constructor, so nothing raises it: every fault of the hardware is recorded in the
registers and the core goes on to a next state (60_exceptions.md R106), and no item of the spec is stuck
(93_implementation_defined.md). Safe: no behaviour is cut off (log entry 19). -/
inductive Fault where
deriving DecidableEq, Repr

/-- Why the model gives an instruction no meaning. -/
inductive Refusal where
  /-- Raised by an arm of `exec` whose instruction has no meaning yet. Safe: the model stops where the hardware goes
  on. No arm of this model raises it. -/
  | notModelled (mnemonic : String)
deriving DecidableEq, Repr

/-- The state of the machine. -/
structure State where
  /-- The core's architectural state (10_state.md R13). -/
  regs : Registers
  /-- The host's transactions that the core has not yet taken, oldest first (20_memory.md R42; log entry 1). -/
  pending : List Transaction
  /-- The word the last step returned to the host; none where it returned none (20_memory.md R34; log entry 10). -/
  response : Option Word32
  /-- EVER_FAULTED, the ghost bit: a fault has occurred, before or after the last reset (70_reset_and_hazards.md R121). -/
  everFaulted : Bool
  /-- The number of the next free value (log entry 20). -/
  freeDraws : Nat
deriving DecidableEq, Repr

/-- The machine right after reset (70_reset_and_hazards.md R120), with no transaction issued yet. -/
def State.reset : State where
  regs := .reset 0
  pending := []
  response := none
  everFaulted := false
  freeDraws := 1

end Sys2Proof.Machine
end

