-- ==== Sys2Proof/Machine/Ops.lean ====
section
/-! DEFINITION. The named operations over the registers, and taking a fault (60_exceptions.md R106) and leaving it by
reset (R110; 70_reset_and_hazards.md R119). -/

namespace Sys2Proof.Machine

/-! Register writes. Each is the one place where its registers are written. -/

/-- A host write of `v` to KEY.w[c]: RK, KX_POS and SCHED become stale (20_memory.md R37). -/
def Registers.writeKey (r : Registers) (c : Fin 4) (v : Word32) : Registers :=
  { r with
    key := r.key.setCol c (.unpack v)
    keyWv := r.keyWv ||| wordBit c
    rkValid := false
    kxPos := 0
    schedValid := false }

/-- A host write of `v` to STATE.w[c] (20_memory.md R37). -/
def Registers.writeState (r : Registers) (c : Fin 4) (v : Word32) : Registers :=
  { r with
    state := r.state.setCol c (.unpack v)
    stateWv := r.stateWv ||| wordBit c }

/-- `STATE <- b`, by a command that has found all of STATE written (10_state.md R21). -/
def Registers.putState (r : Registers) (b : Block) : Registers := { r with state := b }

/-- `RK <- b; RK_VALID <- 1; KX_POS <- pos` (41_key_expander.md R83, R84; 43_encryption_engine.md R99). -/
def Registers.putRk (r : Registers) (b : Block) (pos : BitVec 4) : Registers :=
  { r with rk := b, rkValid := true, kxPos := pos }

/-- `SCHED <- ks; SCHED_VALID <- 1` (41_key_expander.md R85). -/
def Registers.putSched (r : Registers) (ks : Vector Block 10) : Registers :=
  { r with sched := ks, schedValid := true }

/-- `RESULT <- b; RESULT_VALID <- 1` (40_primitives.md R73, R74). -/
def Registers.putResult (r : Registers) (b : Byte) : Registers :=
  { r with result := b, resultValid := true }

/-- The fault record of 60_exceptions.md R106. -/
def Registers.recordFault (r : Registers) (code : FaultCode) (info : Word32) : Registers :=
  { r with fault := true, fcode := code, finfo := info }

/-! State updates. -/

/-- The state with its registers replaced. -/
def State.setRegs (s : State) (r : Registers) : State := { s with regs := r }

/-- Taking a fault: with FAULT = 0 the first fault is recorded, nothing else of the hardware changes, and the ghost bit
is set (60_exceptions.md R106; 70_reset_and_hazards.md R121). With FAULT = 1 nothing is recorded (R109). -/
def State.raise (s : State) (code : FaultCode) (info : Word32) : State :=
  if s.regs.fault then s
  else { s with regs := s.regs.recordFault code info, everFaulted := true }

/-- Leaving a fault: reset, the only exit (60_exceptions.md R110). Every register takes its reset value, and the ghost
bit stays (70_reset_and_hazards.md R119 to R121). -/
def State.assertReset (s : State) : State :=
  { s with regs := .reset s.freeDraws, freeDraws := s.freeDraws + 1 }

/-- A read returns the word `v` to the host. -/
def State.respond (s : State) (v : Word32) : State := { s with response := some v }

/-- A read that has no defined value returns a free one (20_memory.md R36, R38; log entry 3). -/
def State.respondFree (s : State) : State :=
  { s with response := some (Config.freeReadWord s.freeDraws), freeDraws := s.freeDraws + 1 }

/-- The core takes the oldest transaction, leaving `rest`; nothing has been returned for it yet. -/
def State.take (s : State) (rest : List Transaction) : State := { s with pending := rest, response := none }

/-! Commands. -/

/-- `require cond else code` (00_scope.md R10). -/
def require {α : Type} (cond : Bool) (code : FaultCode) (k : Except FaultCode α) : Except FaultCode α :=
  if cond then k else .error code

/-- The end of a command whose word is `word`: it writes its registers, or raises its fault with FINFO = the command
word and writes nothing (00_scope.md R10; 60_exceptions.md R106; log entry 8). -/
def complete (word : Word32) (result : Except FaultCode Registers) (s : State) :
    Host.Outcome State Fault Refusal :=
  match result with
  | .ok r => .next (s.setRegs r)
  | .error code => .next (s.raise code word)

/-- The fault of a word the decoder refuses (30_encoding.md R53). -/
def rejectCode : Reject → FaultCode
  | .illegalOpcode => .illegalOpcode
  | .reservedField => .reservedField

end Sys2Proof.Machine
end

