-- ==== Sys2Proof/Machine/Operands.lean ====
section
/-! DEFINITION. The operands of the commands that read data registers, each with its check (30_encoding.md R51;
60_exceptions.md R105). -/

namespace Sys2Proof.Machine

/-- The place of SCHED[idx]: index idx - 1 for idx in 1..10, and none for a reserved index (30_encoding.md R51, R55). -/
def schedIndex (idx : BitVec 4) : Option (Fin 10) :=
  if h : 1 ≤ idx.toNat ∧ idx.toNat ≤ 10 then some ⟨idx.toNat - 1, by omega⟩ else none

/-- Reads KEY, all of which must be written. -/
def withKey {α : Type} (r : Registers) (k : Block → Except FaultCode α) : Except FaultCode α :=
  require r.keyFull .unwrittenOperand (k r.key)

/-- Reads STATE, all of which must be written. -/
def withState {α : Type} (r : Registers) (k : Block → Except FaultCode α) : Except FaultCode α :=
  require r.stateFull .unwrittenOperand (k r.state)

/-- Reads RK, which must hold a value. -/
def withRk {α : Type} (r : Registers) (k : Block → Except FaultCode α) : Except FaultCode α :=
  require r.rkValid .unwrittenOperand (k r.rk)

/-- Reads SCHED, which must hold the schedule of KEY. -/
def withSched {α : Type} (r : Registers) (k : Vector Block 10 → Except FaultCode α) : Except FaultCode α :=
  require r.schedValid .noSchedule (k r.sched)

/-- `KeySrc(KSEL, IDX)` (30_encoding.md R51). A reserved schedule index, which the decoder never lets through, is
RESERVED_FIELD here too (log entry 9). -/
def withKeySrc {α : Type} (ks : KeySel) (r : Registers) (k : Block → Except FaultCode α) : Except FaultCode α :=
  match ks with
  | .key => withKey r k
  | .rk => withRk r k
  | .sched idx =>
    match schedIndex idx with
    | none => .error .reservedField
    | some i => withSched r fun sched => k sched[i]

/-- A command that replaces STATE by `f STATE` (42_round_pipeline.md R92 to R94). -/
def stageResult (f : Block → Block) (r : Registers) : Except FaultCode Registers :=
  withState r fun st => .ok (r.putState (f st))

/-- A command that replaces STATE by `f STATE K` for the key operand K, checked after the fields and STATE
(42_round_pipeline.md R95 to R97; 60_exceptions.md R108). -/
def keyedResult (f : Block → Block → Block) (ks : KeySel) (r : Registers) : Except FaultCode Registers :=
  require ks.wellFormed .reservedField <|
    withState r fun st => withKeySrc ks r fun k => .ok (r.putState (f st k))

end Sys2Proof.Machine
end

