-- ==== Sys2Proof/Machine/EncryptionEngine.lean ====
section
/-! DEFINITION. The commands of family 0x3_ (43_encryption_engine.md R99, R100). -/

namespace Sys2Proof.Machine

/-- ENCRYPT: the expander restarts at KEY and ends at position 10 (43_encryption_engine.md R99). -/
def execEncrypt (s : State) : Host.Outcome State Fault Refusal :=
  complete (encode .encrypt)
    (withState s.regs fun st => withKey s.regs fun key =>
      let cr := encryptFresh st key
      .ok ((s.regs.putState cr.1).putRk cr.2 10))
    s

/-- ENCRYPT_SCHED: STATE, then KEY, then SCHED is checked (43_encryption_engine.md R100; 60_exceptions.md R108). -/
def execEncryptSched (s : State) : Host.Outcome State Fault Refusal :=
  complete (encode .encryptSched)
    (withState s.regs fun st => withKey s.regs fun key => withSched s.regs fun sched =>
      .ok (s.regs.putState (encryptWith st key sched)))
    s

end Sys2Proof.Machine
end

