-- ==== Sys2Proof/Machine/KeyExpander.lean ====
section
/-! DEFINITION. The commands of family 0x1_ (41_key_expander.md R83 to R85). -/

namespace Sys2Proof.Machine

/-- KX_INIT (41_key_expander.md R83). -/
def execKxInit (s : State) : Host.Outcome State Fault Refusal :=
  complete (encode .kxInit) (withKey s.regs fun key => .ok (s.regs.putRk key 0)) s

/-- KX_NEXT: the operand check comes before the bound (41_key_expander.md R84; 60_exceptions.md R108). -/
def execKxNext (s : State) : Host.Outcome State Fault Refusal :=
  complete (encode .kxNext)
    (withRk s.regs fun rk =>
      require (s.regs.kxPos < 10) .kxOverrun <|
        let i := s.regs.kxPos + 1
        .ok (s.regs.putRk (keyNext rk i.toNat) i))
    s

/-- KX_EXPAND (41_key_expander.md R85). -/
def execKxExpand (s : State) : Host.Outcome State Fault Refusal :=
  complete (encode .kxExpand) (withKey s.regs fun key => .ok (s.regs.putSched (keyExpand key))) s

end Sys2Proof.Machine
end

