-- ==== Sys2Proof/Machine/Primitives.lean ====
section
/-! DEFINITION. The commands of family 0x0_ (40_primitives.md R72 to R74). -/

namespace Sys2Proof.Machine

/-- NOP (40_primitives.md R72). -/
def execNop (s : State) : Host.Outcome State Fault Refusal :=
  complete (encode .nop) (.ok s.regs) s

/-- GF_MUL (40_primitives.md R73). -/
def execGfMul (a b : Byte) (s : State) : Host.Outcome State Fault Refusal :=
  complete (encode (.gfMul a b)) (.ok (s.regs.putResult (gmul a b))) s

/-- SBOX (40_primitives.md R74). -/
def execSbox (a : Byte) (s : State) : Host.Outcome State Fault Refusal :=
  complete (encode (.sbox a)) (.ok (s.regs.putResult (sbox a))) s

end Sys2Proof.Machine
end

