-- ==== Sys2Proof/Machine/RoundPipeline.lean ====
section
/-! DEFINITION. The commands of family 0x2_ (42_round_pipeline.md R92 to R97). -/

namespace Sys2Proof.Machine

/-- SUB_BYTES (42_round_pipeline.md R92). -/
def execSubBytes (s : State) : Host.Outcome State Fault Refusal :=
  complete (encode .subBytes) (stageResult subBytes s.regs) s

/-- SHIFT_ROWS (42_round_pipeline.md R93). -/
def execShiftRows (s : State) : Host.Outcome State Fault Refusal :=
  complete (encode .shiftRows) (stageResult shiftRows s.regs) s

/-- MIX_COLUMNS (42_round_pipeline.md R94). -/
def execMixColumns (s : State) : Host.Outcome State Fault Refusal :=
  complete (encode .mixColumns) (stageResult mixColumns s.regs) s

/-- ADD_ROUND_KEY (42_round_pipeline.md R95). -/
def execAddRoundKey (ks : KeySel) (s : State) : Host.Outcome State Fault Refusal :=
  complete (encode (.addRoundKey ks)) (keyedResult addRoundKey ks s.regs) s

/-- FULL_ROUND (42_round_pipeline.md R96). -/
def execFullRound (ks : KeySel) (s : State) : Host.Outcome State Fault Refusal :=
  complete (encode (.fullRound ks)) (keyedResult fullRound ks s.regs) s

/-- FINAL_ROUND (42_round_pipeline.md R97). -/
def execFinalRound (ks : KeySel) (s : State) : Host.Outcome State Fault Refusal :=
  complete (encode (.finalRound ks)) (keyedResult finalRound ks s.regs) s

end Sys2Proof.Machine
end

