-- ==== Sys2Proof/Machine/Dispatch.lean ====
section
/-! DEFINITION. The execution of one command: one arm per constructor of Instr, each a direct call of its meaning. It
is what 30_encoding.md R53 does after decoding, for a CMD write taken with FAULT = 0 and BUSY = 0; those two are checked
where the write is taken (Machine/Bus.lean; log entry 7). -/

namespace Sys2Proof.Machine

def exec (i : Instr) (s : State) : Host.Outcome State Fault Refusal :=
  match i with
  | .nop => Sys2Proof.Machine.execNop s
  | .gfMul a b => Sys2Proof.Machine.execGfMul a b s
  | .sbox a => Sys2Proof.Machine.execSbox a s
  | .kxInit => Sys2Proof.Machine.execKxInit s
  | .kxNext => Sys2Proof.Machine.execKxNext s
  | .kxExpand => Sys2Proof.Machine.execKxExpand s
  | .subBytes => Sys2Proof.Machine.execSubBytes s
  | .shiftRows => Sys2Proof.Machine.execShiftRows s
  | .mixColumns => Sys2Proof.Machine.execMixColumns s
  | .addRoundKey ks => Sys2Proof.Machine.execAddRoundKey ks s
  | .fullRound ks => Sys2Proof.Machine.execFullRound ks s
  | .finalRound ks => Sys2Proof.Machine.execFinalRound ks s
  | .encrypt => Sys2Proof.Machine.execEncrypt s
  | .encryptSched => Sys2Proof.Machine.execEncryptSched s

end Sys2Proof.Machine
end

