-- ==== Sys2Proof/Machine/Bus.lean ====
section
/-! DEFINITION. The register window: its map, what a read returns, what a write does, and the transaction that a step
takes (20_memory.md R28 to R42; 60_exceptions.md R105 to R110). -/

namespace Sys2Proof.Machine

/-- A word of the register window (20_memory.md R30). `sched i c` is SCHED[i + 1].w[c]. -/
inductive Reg where
  | cmd
  | status
  | finfo
  | result
  | key (c : Fin 4)
  | state (c : Fin 4)
  | rk (c : Fin 4)
  | sched (i : Fin 10) (c : Fin 4)
deriving DecidableEq, Repr

/-- The byte offset of a register word (20_memory.md R30). -/
def Reg.offset : Reg → BitVec 8
  | .cmd => 0x00
  | .status => 0x04
  | .finfo => 0x08
  | .result => 0x0C
  | .key c => 0x10 + BitVec.ofNat 8 (4 * c.val)
  | .state c => 0x20 + BitVec.ofNat 8 (4 * c.val)
  | .rk c => 0x30 + BitVec.ofNat 8 (4 * c.val)
  | .sched i c => 0x40 + BitVec.ofNat 8 (0x10 * i.val + 4 * c.val)

/-- Whether the host may write the word: the RW and WO rows of the map (20_memory.md R30). -/
def Reg.writable : Reg → Bool
  | .cmd => true
  | .status => false
  | .finfo => false
  | .result => false
  | .key _ => true
  | .state _ => true
  | .rk _ => false
  | .sched _ _ => false

/-- The column that an offset of a Block register addresses: 0..3, from its bits [3:2] (20_memory.md R30). -/
def columnAt (off : BitVec 8) : Fin 4 := ⟨off.toNat / 4 % 4, by omega⟩

/-- The register word at an offset; none at a misaligned offset and in the reserved range 0xE0..0xFC (20_memory.md R30,
R35). -/
def regAt (off : BitVec 8) : Option Reg :=
  if off.toNat % 4 ≠ 0 then none
  else if off.toNat = 0x00 then some .cmd
  else if off.toNat = 0x04 then some .status
  else if off.toNat = 0x08 then some .finfo
  else if off.toNat = 0x0C then some .result
  else if off.toNat < 0x20 then some (.key (columnAt off))
  else if off.toNat < 0x30 then some (.state (columnAt off))
  else if off.toNat < 0x40 then some (.rk (columnAt off))
  else if h : 0x40 ≤ off.toNat ∧ off.toNat < 0xE0 then
    some (.sched ⟨(off.toNat - 0x40) / 0x10, by omega⟩ (columnAt off))
  else none

/-- The checks every access passes first, for an access of `size` bytes at `off`: BUSY_VIOLATION unless it is a 32-bit
read of STATUS, then BUS_ERROR (60_exceptions.md R108 items 2 and 3; 70_reset_and_hazards.md R123). -/
def access {α : Type} (r : Registers) (isRead : Bool) (off : BitVec 8) (size : Nat)
    (k : Reg → Except FaultCode α) : Except FaultCode α :=
  require (!r.busy || (isRead && size == 4 && regAt off == some .status)) .busyViolation <|
    require (size == 4) .busError <|
      match regAt off with
      | none => .error .busError
      | some reg => k reg

/-- What a read of a register word returns (20_memory.md R36). -/
def Registers.readReg (r : Registers) : Reg → Except FaultCode Word32
  | .cmd => .ok 0
  | .status => .ok r.status
  | .finfo => .ok r.finfo
  | .result => require r.resultValid .unwrittenRead (.ok (r.result.setWidth 32))
  | .key c => require (r.keyWv.getLsbD c.val) .unwrittenRead (.ok (r.key.col c).pack)
  | .state c => require (r.stateWv.getLsbD c.val) .unwrittenRead (.ok (r.state.col c).pack)
  | .rk c => require r.rkValid .unwrittenRead (.ok (r.rk.col c).pack)
  | .sched i c => require r.schedValid .unwrittenRead (.ok (r.sched[i].col c).pack)

/-- What a host read of `size` bytes at `off` returns, or the fault it meets (20_memory.md R35, R36). -/
def Registers.read (r : Registers) (off : BitVec 8) (size : Nat) : Except FaultCode Word32 :=
  access r true off size r.readReg

/-- The register word a host write addresses, or the fault it meets before the word's access right is looked at
(20_memory.md R35; 60_exceptions.md R108). -/
def Registers.writeTarget (r : Registers) (off : BitVec 8) (size : Nat) : Except FaultCode Reg :=
  access r false off size .ok

/-- `decode_and_execute(v)`, with FAULT = 0 and BUSY = 0 (30_encoding.md R53). -/
def command (v : Word32) (s : State) : Host.Outcome State Fault Refusal :=
  match decode v with
  | .ok i => exec i s
  | .error e => .next (s.raise (rejectCode e) v)

/-- A host read. One that faults returns a free word, and records its fault if it is the first (20_memory.md R36, R38;
log entries 3 and 15). -/
def hostRead (off : BitVec 8) (size : Nat) (s : State) : Host.Outcome State Fault Refusal :=
  match s.regs.read off size with
  | .ok v => .next (s.respond v)
  | .error code => .next (s.raise code (off.setWidth 32)).respondFree

/-- A host write of `v` to the register word at `off`: a command, a KEY or STATE word, or BUS_ERROR for a read-only
word (20_memory.md R37). -/
def writeReg (reg : Reg) (off : BitVec 8) (v : Word32) (s : State) : Host.Outcome State Fault Refusal :=
  match reg with
  | .cmd => command v s
  | .key c => .next (s.setRegs (s.regs.writeKey c v))
  | .state c => .next (s.setRegs (s.regs.writeState c v))
  | .status => .next (s.raise .busError (off.setWidth 32))
  | .finfo => .next (s.raise .busError (off.setWidth 32))
  | .result => .next (s.raise .busError (off.setWidth 32))
  | .rk _ => .next (s.raise .busError (off.setWidth 32))
  | .sched _ _ => .next (s.raise .busError (off.setWidth 32))

/-- A host write: ignored while FAULT = 1 (20_memory.md R37, R38). -/
def hostWrite (off : BitVec 8) (size : Nat) (v : Word32) (s : State) : Host.Outcome State Fault Refusal :=
  if s.regs.fault then .next s
  else
    match s.regs.writeTarget off size with
    | .ok reg => writeReg reg off v s
    | .error code => .next (s.raise code (off.setWidth 32))

/-- One transaction: one atomic step of the core (20_memory.md R34). -/
def transact (t : Transaction) (s : State) : Host.Outcome State Fault Refusal :=
  match t with
  | .read off size => hostRead off size s
  | .write off size v => hostWrite off size v s
  | .reset => .next s.assertReset

/-- The core takes the host's oldest transaction; with none issued it stays as it is (20_memory.md R28, R42). -/
def takeTransaction (s : State) : Host.Outcome State Fault Refusal :=
  match s.pending with
  | [] => .next s
  | t :: rest => transact t (s.take rest)

/-! The host's side of the port. -/

/-- The window offset of a host address, for a window at `base`; none where the address does not reach the core
(20_memory.md R29). -/
def windowOffset (base addr : Nat) : Option (BitVec 8) :=
  if base ≤ addr ∧ addr < base + 0x100 then some (BitVec.ofNat 8 (addr - base)) else none

/-- The host issues a transaction after those it has already issued (20_memory.md R42). -/
def State.issue (s : State) (t : Transaction) : State := { s with pending := s.pending ++ [t] }

/-- The host issues `MemRead(addr, size)` on its bus; an address outside the window does not reach the core
(20_memory.md R29, R34). -/
def State.issueRead (s : State) (base addr size : Nat) : State :=
  match windowOffset base addr with
  | none => s
  | some off => s.issue (.read off size)

/-- The host issues `MemWrite(addr, size, v)` on its bus; an address outside the window does not reach the core
(20_memory.md R29, R34). -/
def State.issueWrite (s : State) (base addr size : Nat) (v : Word32) : State :=
  match windowOffset base addr with
  | none => s
  | some off => s.issue (.write off size v)

/-- The host's next transaction is a CMD write of `v`, ahead of what it has already issued (log entry 1). -/
def State.issueCommandFirst (s : State) (v : Word32) : State :=
  { s with pending := .write Reg.cmd.offset 4 v :: s.pending }

end Sys2Proof.Machine
end

