-- ==== Sys2Proof/Machine/Step.lean ====
section
/-! DEFINITION. The step of the machine, and how a command word is placed where the next step takes it. -/

namespace Sys2Proof.Machine

/-- One step: the core takes the host's next transaction (20_memory.md R28, R34). -/
def step (s : State) : Host.Outcome State Fault Refusal := takeTransaction s

/-- The state in which the host's next transaction is a CMD write of the table word `w` (30_encoding.md R49). -/
def State.withFetchWord (s : State) (nbits w : Nat) : State := s.issueCommandFirst (tableWord nbits w)

end Sys2Proof.Machine
end

