-- ==== Sys2Proof/Machine/Driver.lean ====
section
/-! DEFINITION. The host's side, as the spec writes it: block preparation (40_primitives.md R62 to R64), the transactions
of the assembler syntax and the pseudo-instructions (30_encoding.md R57, R58), runs (20_memory.md R48) and the bulk
procedure (43_encryption_engine.md R103). None of this is hardware. -/

namespace Sys2Proof.Machine

/-! Block preparation. -/

/-- HOST: a Block from a byte string of any length: zero-filled, or cut at 16 bytes (40_primitives.md R62). -/
def hostBlock (s : List Byte) : Block := .ofBytes fun k => s.getD k 0

/-- HOST: the UTF-8 bytes of a text (40_primitives.md R63; log entry 17). -/
def textBytes (t : String) : List Byte := t.toUTF8.data.toList.map UInt8.toBitVec

/-- HOST: a Block from text (40_primitives.md R63). -/
def hostBlockOfText (t : String) : Block := hostBlock (textBytes t)

/-- HOST: a byte string split into ceil(n / 16) Blocks, in order (40_primitives.md R64). -/
def hostBlocks (s : List Byte) : List Block :=
  (List.range ((s.length + 15) / 16)).map fun j => hostBlock (s.drop (16 * j))

/-! Transactions (30_encoding.md R57). -/

/-- `WR <reg>, <value>`. -/
def wr (reg : Reg) (v : Word32) : Transaction := .write reg.offset 4 v

/-- `RD <reg>`. -/
def rd (reg : Reg) : Transaction := .read reg.offset 4

/-- A command mnemonic alone on its line: `WR CMD, <encoding>`. -/
def cmd (i : Instr) : Transaction := wr .cmd (encode i)

/-! Pseudo-instructions (30_encoding.md R58). -/

/-- The four column numbers, in order. -/
def columns : List (Fin 4) := [0, 1, 2, 3]

/-- The four register words of a Block, in order (20_memory.md R32). -/
def Block.words (b : Block) : List Word32 := columns.map fun c => (b.col c).pack

/-- `LDKEY b0 .. b15`. -/
def ldKey (b : Block) : List Transaction := columns.map fun c => wr (.key c) (b.col c).pack

/-- `LDSTATE b0 .. b15`. -/
def ldState (b : Block) : List Transaction := columns.map fun c => wr (.state c) (b.col c).pack

/-- `RDSTATE`. -/
def rdState : List Transaction := columns.map fun c => rd (.state c)

/-- `WHITEN`. -/
def whiten : Instr := .addRoundKey .key

/-- The commands of `ENCRYPT_STEPS`. -/
def encryptStepCommands : List Instr :=
  [.kxInit, whiten] ++ (List.replicate 9 [.kxNext, .fullRound .rk]).flatten ++ [.kxNext, .finalRound .rk]

/-- `ENCRYPT_STEPS`. -/
def encryptSteps : List Transaction := encryptStepCommands.map cmd

/-! Runs (20_memory.md R48). -/

/-- The state in which the host has issued exactly the transactions `ts`. -/
def State.withPending (s : State) (ts : List Transaction) : State := { s with pending := ts }

/-- The end of the run of the transactions `ts` from `s`: one step for each (20_memory.md R48). -/
def run (ts : List Transaction) (s : State) : Host.Outcome State Fault Refusal :=
  Sys2Proof.core.run ts.length (s.withPending ts)

/-- The words that `n` steps from `s` return to the host, in order. -/
def responses : Nat → State → List Word32
  | 0, _ => []
  | n + 1, s =>
    match step s with
    | .next t => t.response.toList ++ responses n t
    | .fault _ => []
    | .refused _ => []

/-- The words that the transactions `ts`, run from `s`, return to the host, in order. -/
def runResponses (ts : List Transaction) (s : State) : List Word32 := responses ts.length (s.withPending ts)

/-- The commands `is`, one after another, as `exec` runs them. -/
def execAll : List Instr → State → Host.Outcome State Fault Refusal
  | [], s => .next s
  | i :: is, s =>
    match exec i s with
    | .next t => execAll is t
    | .fault r => .fault r
    | .refused r => .refused r

/-! The bulk procedure (43_encryption_engine.md R103). -/

/-- What `HostBulk` does for one plaintext Block. -/
def hostBulkBlock (p : Block) : List Transaction := ldState p ++ [cmd .encryptSched] ++ rdState

/-- The transactions of `HostBulk(K, [P_1, ..., P_n])`. -/
def hostBulk (k : Block) (ps : List Block) : List Transaction :=
  ldKey k ++ [cmd .kxExpand] ++ (ps.map hostBulkBlock).flatten

end Sys2Proof.Machine
end

