-- ==== Sys2Proof/Safety.lean ====
section
/-! DEFINITION. What claims about this machine are stated in: the invariants of 10_state.md R27, successful runs
(20_memory.md R48), and states that differ only in unreadable register contents (70_reset_and_hazards.md R120). -/

namespace Sys2Proof.Machine

/-- The invariants of 10_state.md R27, its items 1 to 6 in order. -/
structure Registers.Inv (r : Registers) : Prop where
  pos_le : r.kxPos.toNat ≤ 10
  pos_of_not_rkValid : r.rkValid = false → r.kxPos = 0
  rk_of_rkValid : r.rkValid = true → r.keyWv = 0b1111#4 ∧ r.rk = keyIter r.key r.kxPos.toNat
  sched_of_schedValid :
    r.schedValid = true → r.keyWv = 0b1111#4 ∧ ∀ i : Fin 10, r.sched[i] = keyIter r.key (i.val + 1)
  no_record_of_no_fault : r.fault = false → r.fcode = .none ∧ r.finfo = 0
  code_of_fault : r.fault = true → r.fcode ≠ .none
  not_busy : r.busy = false

/-- The invariants of a state: those of its registers, and that a recorded fault is remembered by the ghost bit
(70_reset_and_hazards.md R121). -/
structure State.Inv (s : State) : Prop where
  regs : s.regs.Inv
  ever_of_fault : s.regs.fault = true → s.everFaulted = true

/-- The core takes accesses: FAULT = 0 and BUSY = 0 (20_memory.md R36, R37). -/
def State.Ready (s : State) : Prop := s.regs.fault = false ∧ s.regs.busy = false

/-- A run that ends in this state is successful: no fault now, and none before the last reset
(20_memory.md R48; 92_eei_decisions.md D35). -/
def State.Successful (s : State) : Prop := s.regs.fault = false ∧ s.everFaulted = false

/-! What the statements say of faults. -/

/-- The state after the first fault `code`, with FINFO = `info`: the fault record and the ghost bit, and nothing else
(60_exceptions.md R106; 70_reset_and_hazards.md R121). -/
def State.afterFault (s : State) (code : FaultCode) (info : Word32) : State :=
  { s with
    regs := { s.regs with fault := true, fcode := code, finfo := info }
    everFaulted := true }

/-- A read of `size` bytes at `off` meets the first fault `code`: the fault is recorded with FINFO = the offset, and
nothing else of the hardware changes. Of the word returned nothing is said, for it has no defined value
(20_memory.md R36; 60_exceptions.md R106). -/
def State.ReadRaises (s : State) (off : BitVec 8) (size : Nat) (code : FaultCode) : Prop :=
  ∃ t, hostRead off size s = .next t ∧ t.regs = (s.afterFault code (off.setWidth 32)).regs ∧
    t.everFaulted = true ∧ t.pending = s.pending

/-- A 32-bit read at an offset has a defined value, and it is this word: the lines of 20_memory.md R36 that return one,
each with the valid bit it requires. -/
inductive ReadsAs (r : Registers) : BitVec 8 → Word32 → Prop where
  | cmd : ReadsAs r 0x00 0x00000000
  | status : ReadsAs r 0x04 r.status
  | finfo : ReadsAs r 0x08 r.finfo
  | result : r.resultValid = true → ReadsAs r 0x0C (r.result.setWidth 32)
  | key (c : Fin 4) : r.keyWv.getLsbD c.val = true → ReadsAs r (BitVec.ofNat 8 (0x10 + 4 * c.val)) (r.key.col c).pack
  | state (c : Fin 4) :
      r.stateWv.getLsbD c.val = true → ReadsAs r (BitVec.ofNat 8 (0x20 + 4 * c.val)) (r.state.col c).pack
  | rk (c : Fin 4) : r.rkValid = true → ReadsAs r (BitVec.ofNat 8 (0x30 + 4 * c.val)) (r.rk.col c).pack
  | sched (i : Fin 10) (c : Fin 4) :
      r.schedValid = true → ReadsAs r (BitVec.ofNat 8 (0x40 + 16 * i.val + 4 * c.val)) (r.sched[i].col c).pack

/-- The illegal opcodes, by their ranges (30_encoding.md R54). -/
abbrev IllegalOpcode (op : BitVec 8) : Prop :=
  (0x03 ≤ op.toNat ∧ op.toNat ≤ 0x0F) ∨ (0x13 ≤ op.toNat ∧ op.toNat ≤ 0x1F) ∨
    (0x26 ≤ op.toNat ∧ op.toNat ≤ 0x2F) ∨ 0x32 ≤ op.toNat

/-- A command word of an assigned opcode holds a reserved value: RSV nonzero, a nonzero field the opcode does not use,
KSEL = 3, or a bad IDX (30_encoding.md R55). -/
abbrev ReservedField (v : Word32) : Prop :=
  rsvOf v ≠ 0 ∨ (opOf v ∉ [0x01, 0x02] ∧ aOf v ≠ 0) ∨ (opOf v ≠ 0x01 ∧ bOf v ≠ 0) ∨
    (opOf v ∉ [0x23, 0x24, 0x25] ∧ (kselOf v ≠ 0 ∨ idxOf v ≠ 0)) ∨
    (opOf v ∈ [0x23, 0x24, 0x25] ∧
      (kselOf v = 3 ∨ (kselOf v = 2 ∧ (idxOf v = 0 ∨ 11 ≤ (idxOf v).toNat)) ∨
        ((kselOf v = 0 ∨ kselOf v = 1) ∧ idxOf v ≠ 0)))

/-- The key operand `ks` can be read from `r`, and it is the Block `k` (30_encoding.md R51). -/
def Supplies (ks : KeySel) (r : Registers) (k : Block) : Prop :=
  match ks with
  | .key => r.keyWv = 0b1111#4 ∧ k = r.key
  | .rk => r.rkValid = true ∧ k = r.rk
  | .sched idx => r.schedValid = true ∧ ∃ i : Fin 10, idx.toNat = i.val + 1 ∧ k = r.sched[i]

/-! Which commands write which registers (the "written by" column of 10_state.md R13). -/

/-- The commands that write STATE. -/
def Writes.state : Instr → Bool
  | .subBytes | .shiftRows | .mixColumns | .addRoundKey _ | .fullRound _ | .finalRound _ | .encrypt
  | .encryptSched => true
  | .nop | .gfMul _ _ | .sbox _ | .kxInit | .kxNext | .kxExpand => false

/-- The commands that write RK, RK_VALID and KX_POS. -/
def Writes.rk : Instr → Bool
  | .kxInit | .kxNext | .encrypt => true
  | .nop | .gfMul _ _ | .sbox _ | .kxExpand | .subBytes | .shiftRows | .mixColumns | .addRoundKey _ | .fullRound _
  | .finalRound _ | .encryptSched => false

/-- The commands that write SCHED and SCHED_VALID. -/
def Writes.sched : Instr → Bool
  | .kxExpand => true
  | .nop | .gfMul _ _ | .sbox _ | .kxInit | .kxNext | .subBytes | .shiftRows | .mixColumns | .addRoundKey _
  | .fullRound _ | .finalRound _ | .encrypt | .encryptSched => false

/-- The commands that write RESULT and RESULT_VALID. -/
def Writes.result : Instr → Bool
  | .gfMul _ _ | .sbox _ => true
  | .nop | .kxInit | .kxNext | .kxExpand | .subBytes | .shiftRows | .mixColumns | .addRoundKey _ | .fullRound _
  | .finalRound _ | .encrypt | .encryptSched => false

/-! States that differ only in unreadable contents. -/

/-- Registers that differ at most in contents no valid bit covers (10_state.md R21). -/
structure Registers.SameReadable (r q : Registers) : Prop where
  keyWv : r.keyWv = q.keyWv
  stateWv : r.stateWv = q.stateWv
  rkValid : r.rkValid = q.rkValid
  kxPos : r.kxPos = q.kxPos
  schedValid : r.schedValid = q.schedValid
  resultValid : r.resultValid = q.resultValid
  fault : r.fault = q.fault
  fcode : r.fcode = q.fcode
  finfo : r.finfo = q.finfo
  busy : r.busy = q.busy
  key : ∀ c : Fin 4, r.keyWv.getLsbD c.val = true → r.key.col c = q.key.col c
  state : ∀ c : Fin 4, r.stateWv.getLsbD c.val = true → r.state.col c = q.state.col c
  rk : r.rkValid = true → r.rk = q.rk
  sched : r.schedValid = true → r.sched = q.sched
  result : r.resultValid = true → r.result = q.result

/-- States that differ at most in unreadable register contents. -/
structure State.SameReadable (s t : State) : Prop where
  regs : s.regs.SameReadable t.regs
  pending : s.pending = t.pending
  response : s.response = t.response
  everFaulted : s.everFaulted = t.everFaulted
  freeDraws : s.freeDraws = t.freeDraws

end Sys2Proof.Machine
end

