-- ==== Sys2Proof/Certificates/Slice0/Obligations.lean ====
section
/-! DEFINITION. The statements about this machine that are handed to the provers. Each docstring names the rules of
spec/ it rests on. -/

section

open Sys2Proof Sys2Proof.Machine

/-! Encoding. -/

/-- R52, R53, R57: decoding the word of a well-formed command gives the command back, with every operand. -/
def Obligations.DecodeOfEncode : Prop :=
  ∀ i : Instr, i.WellFormed → decode (encode i) = .ok i

/-- R53, R57: a word that decodes is the word of the command it decodes to, which is well formed; so no bit of an
accepted word is dropped. -/
def Obligations.EncodeOfDecode : Prop :=
  ∀ (v : Word32) (i : Instr), decode v = .ok i → i.WellFormed ∧ encode i = v

/-- R54: the 242 opcodes outside the map, by their ranges; a CMD write of one raises ILLEGAL_OPCODE with FINFO = the
word and has no other effect. -/
def Obligations.IllegalOpcodesRaise : Prop :=
  (∀ op : BitVec 8, op ∉ assignedOpcodes ↔ IllegalOpcode op) ∧
    ((List.range 256).filter fun n => decide (IllegalOpcode (BitVec.ofNat 8 n))).length = 242 ∧
    ∀ (s : State) (v : Word32), s.Ready → IllegalOpcode (opOf v) →
      hostWrite 0x00 4 v s = .next (s.afterFault .illegalOpcode v)

/-- R53, R55: a CMD write of an assigned opcode with a reserved value raises RESERVED_FIELD with FINFO = the word and
has no other effect; every other word of an assigned opcode is a command. -/
def Obligations.ReservedFieldsRaise : Prop :=
  (∀ (s : State) (v : Word32), s.Ready → opOf v ∈ assignedOpcodes → ReservedField v →
      hostWrite 0x00 4 v s = .next (s.afterFault .reservedField v)) ∧
    ∀ v : Word32, (∃ i, decode v = .ok i) ↔ opOf v ∈ assignedOpcodes ∧ ¬ ReservedField v

/-- R52: a word that decodes matches its command's row of the opcode table, and matches no other row. -/
def Obligations.TableRowsAreDisjoint : Prop :=
  ∀ (v : Word32) (i : Instr), decode v = .ok i →
    v &&& i.rowMask = i.rowMatch ∧ ∀ j : Instr, v &&& j.rowMask = j.rowMatch → j.rowMatch = i.rowMatch

/-- R57, R84, R99: words that the spec writes out decode to the commands they are written for: five examples of the
assembler syntax (R57), the word of KX_NEXT (R84) and the word of ENCRYPT (R99). -/
def Obligations.ExampleWordsDecode : Prop :=
  decode 0x83570001 = .ok (.gfMul 0x57 0x83) ∧ decode 0x00530002 = .ok (.sbox 0x53) ∧
    decode 0x00000011 = .ok .kxNext ∧ decode 0x00000023 = .ok (.addRoundKey .key) ∧
    decode 0x00001024 = .ok (.fullRound .rk) ∧ decode 0x00002A25 = .ok (.finalRound (.sched 10)) ∧
    decode 0x00000030 = .ok .encrypt

/-- R53: the meaning of a command, well formed or not, is what a CMD write of its word does. For ill-formed terms this
is the model's choice (log entry 9). -/
def Obligations.ExecIsCommandOfItsWord : Prop :=
  ∀ (i : Instr) (s : State), command (encode i) s = exec i s

/-! The step. -/

/-- R34, R37, R53: when the host's next transaction is a CMD write of a word that decodes, the step is `exec` of the
command, on the state with the transaction taken and nothing yet returned. The queue and the returned word are the
model's (log entries 1 and 10). -/
def Obligations.StepRunsDecodedCommand : Prop :=
  (∀ (s : State) (v : Word32) (i : Instr) (rest : List Transaction), s.Ready →
      s.pending = .write 0x00 4 v :: rest → decode v = .ok i →
      step s = exec i { s with pending := rest, response := none }) ∧
    ∀ (s : State) (nbits w : Nat) (i : Instr), s.Ready → decodeTableWord nbits w = some i →
      step (s.withFetchWord nbits w) = exec i { s with response := none }

/-- R28, R42: the core takes the host's transactions one at a time in the order issued, and with none it stays as it
is. The queue is the model's (log entry 1). -/
def Obligations.TransactionsAreTakenInOrder : Prop :=
  (∀ s : State, s.pending = [] → step s = .next s) ∧
    ∀ (s : State) (x : Transaction) (rest : List Transaction), s.pending = x :: rest →
      step s = transact x { s with pending := rest, response := none }

/-- R34, R47: every transaction is one step that has its effects or raises one fault, and nothing is left undefined. That
a fault is a next state and no stop is the model's choice (log entry 19), and so is that a step takes the oldest pending
transaction and, with none pending, is idle (log entry 1). -/
def Obligations.EveryStepAnswersNext : Prop :=
  ∀ s : State, ∃ t, step s = .next t ∧ t.pending = s.pending.tail

/-! Invariants. -/

/-- R27: every step keeps the invariants of the registers, and that a recorded fault is remembered by the ghost bit. -/
def Obligations.StepKeepsInvariants : Prop :=
  ∀ s t : State, s.Inv → step s = .next t → t.Inv

/-- R27, R120: the reset state meets the invariants. -/
def Obligations.ResetMeetsInvariants : Prop :=
  State.reset.Inv

/-- R121: no step, reset among them, clears the ghost bit; the step that takes the first fault sets it; and nothing
else sets it. -/
def Obligations.EverFaultedIsSticky : Prop :=
  ∀ s t : State, step s = .next t →
    (s.everFaulted = true → t.everFaulted = true) ∧
      (s.regs.fault = false → t.regs.fault = true → t.everFaulted = true) ∧
      (t.everFaulted = true → s.everFaulted = true ∨ t.regs.fault = true)

/-- R120, R21: an unspecified register content is never observable: from two states that differ only in contents no
valid bit covers, a step returns the same word to the host and ends in two states that again differ only in such
contents. For a read that faults, whose word the spec leaves undefined, that the two words are the same is the model's
choice: the word is a free value numbered by `freeDraws`, which the two states have in common (log entries 3 and 20);
and so are the free contents after reset (log entry 2). -/
def Obligations.UnreadableContentsAreUnobservable : Prop :=
  ∀ s t : State, s.SameReadable t →
    ∃ s' t', step s = .next s' ∧ step t = .next t' ∧ s'.response = t'.response ∧ s'.SameReadable t'

/-! Faults and reset. -/

/-- R106, R109: with FAULT = 0 a fault is recorded and nothing else of the hardware changes; with FAULT = 1 nothing is
recorded. -/
def Obligations.FaultEntryRecordsOnce : Prop :=
  ∀ (s : State) (code : FaultCode) (info : Word32),
    (s.regs.fault = false → s.raise code info = s.afterFault code info) ∧
      (s.regs.fault = true → s.raise code info = s)

/-- R107: a step that takes a fault changes no register but the fault record, and records one of the codes 1..8. -/
def Obligations.FaultsArePrecise : Prop :=
  ∀ s t : State, step s = .next t → s.regs.fault = false → t.regs.fault = true →
    t.regs = { s.regs with fault := true, fcode := t.regs.fcode, finfo := t.regs.finfo } ∧ t.regs.fcode ≠ .none

/-- R38: while FAULT = 1 every write, to any offset, has no effect and raises nothing; a read (with BUSY = 0, as R36
has it) returns what R36 gives; a read that would fault there records nothing, and of the word it returns nothing is
said. -/
def Obligations.FaultedCoreIsQuiescent : Prop :=
  ∀ (s : State) (off : BitVec 8) (size : Nat), s.regs.fault = true →
    (∀ v, hostWrite off size v s = .next s) ∧
      (s.regs.busy = false →
        (∀ w, ReadsAs s.regs off w → hostRead off 4 s = .next { s with response := some w }) ∧
          ((size ≠ 4 ∨ ¬ ∃ w, ReadsAs s.regs off w) →
            ∃ t, hostRead off size s = .next t ∧ t.regs = s.regs ∧ t.everFaulted = s.everFaulted ∧
              t.pending = s.pending))

/-- R109, R110: while FAULT = 1 no step but reset changes any register. -/
def Obligations.OnlyResetLeavesTheFault : Prop :=
  ∀ s t : State, step s = .next t → s.regs.fault = true →
    t.regs = s.regs ∨ ∃ rest, s.pending = .reset :: rest ∧ t.regs.fault = false

/-- R119, R120, R121: reset gives every control and status field its reset value, whatever the prior state; the ghost
bit and the host's later transactions stay. -/
def Obligations.ResetClearsControlState : Prop :=
  ∀ (s : State) (rest : List Transaction), s.pending = .reset :: rest →
    ∃ t, step s = .next t ∧ t.regs.keyWv = 0 ∧ t.regs.stateWv = 0 ∧ t.regs.rkValid = false ∧ t.regs.kxPos = 0 ∧
      t.regs.schedValid = false ∧ t.regs.resultValid = false ∧ t.regs.fault = false ∧ t.regs.fcode = .none ∧
      t.regs.finfo = 0 ∧ t.regs.busy = false ∧ t.regs.status = 0 ∧ t.everFaulted = s.everFaulted ∧ t.pending = rest

/-- R120: the reset state: every control and status field, and STATUS as a word. The data registers' contents are free
values of the model (log entry 2) and nothing is said of them. -/
def Obligations.ResetStateValues : Prop :=
  State.reset.regs.keyWv = 0 ∧ State.reset.regs.stateWv = 0 ∧ State.reset.regs.rkValid = false ∧
    State.reset.regs.kxPos = 0 ∧ State.reset.regs.schedValid = false ∧ State.reset.regs.resultValid = false ∧
    State.reset.regs.fault = false ∧ State.reset.regs.fcode = .none ∧ State.reset.regs.finfo = 0 ∧
    State.reset.regs.busy = false ∧ State.reset.regs.status = 0x00000000

/-! The register window. -/

/-- R30, R35: the register map is exact: an offset holds a word of the map iff it is that word's offset, and the
offsets that hold none are the misaligned ones and the reserved range. -/
def Obligations.RegisterMapIsExact : Prop :=
  (∀ (off : BitVec 8) (reg : Reg), regAt off = some reg ↔ off = reg.offset) ∧
    ∀ off : BitVec 8, regAt off = none ↔ off.toNat % 4 ≠ 0 ∨ 0xE0 ≤ off.toNat

/-- R36: what a legal read returns, offset by offset, with FAULT = 0 and BUSY = 0. A read that returns a value changes
no register; a read of an unwritten word raises UNWRITTEN_READ and has no defined value; any other offset raises
BUS_ERROR. -/
def Obligations.LegalReads : Prop :=
  ∀ s : State, s.Ready →
    hostRead 0x00 4 s = .next { s with response := some 0x00000000 } ∧
    hostRead 0x04 4 s = .next { s with response := some s.regs.status } ∧
    hostRead 0x08 4 s = .next { s with response := some s.regs.finfo } ∧
    (if s.regs.resultValid then hostRead 0x0C 4 s = .next { s with response := some (s.regs.result.setWidth 32) }
      else s.ReadRaises 0x0C 4 .unwrittenRead) ∧
    (∀ c : Fin 4,
      if s.regs.keyWv.getLsbD c.val then
        hostRead (BitVec.ofNat 8 (0x10 + 4 * c.val)) 4 s = .next { s with response := some (s.regs.key.col c).pack }
      else s.ReadRaises (BitVec.ofNat 8 (0x10 + 4 * c.val)) 4 .unwrittenRead) ∧
    (∀ c : Fin 4,
      if s.regs.stateWv.getLsbD c.val then
        hostRead (BitVec.ofNat 8 (0x20 + 4 * c.val)) 4 s = .next { s with response := some (s.regs.state.col c).pack }
      else s.ReadRaises (BitVec.ofNat 8 (0x20 + 4 * c.val)) 4 .unwrittenRead) ∧
    (∀ c : Fin 4,
      if s.regs.rkValid then
        hostRead (BitVec.ofNat 8 (0x30 + 4 * c.val)) 4 s = .next { s with response := some (s.regs.rk.col c).pack }
      else s.ReadRaises (BitVec.ofNat 8 (0x30 + 4 * c.val)) 4 .unwrittenRead) ∧
    (∀ (i : Fin 10) (c : Fin 4),
      if s.regs.schedValid then
        hostRead (BitVec.ofNat 8 (0x40 + 16 * i.val + 4 * c.val)) 4 s =
          .next { s with response := some (s.regs.sched[i].col c).pack }
      else s.ReadRaises (BitVec.ofNat 8 (0x40 + 16 * i.val + 4 * c.val)) 4 .unwrittenRead) ∧
    ∀ off : BitVec 8, off.toNat % 4 ≠ 0 ∨ 0xE0 ≤ off.toNat →
      s.ReadRaises off 4 .busError

/-- R37: what a legal write does, offset by offset, with FAULT = 0 and BUSY = 0: a command, a word of KEY with its
valid bit and the derived key state made stale, a word of STATE with its valid bit, and BUS_ERROR at every other
offset. -/
def Obligations.LegalWrites : Prop :=
  ∀ (s : State) (v : Word32), s.Ready →
    hostWrite 0x00 4 v s = command v s ∧
    (∀ c : Fin 4, hostWrite (BitVec.ofNat 8 (0x10 + 4 * c.val)) 4 v s =
      .next { s with regs := { s.regs with
        key := s.regs.key.setCol c
          ⟨v.extractLsb' 24 8, v.extractLsb' 16 8, v.extractLsb' 8 8, v.extractLsb' 0 8⟩
        keyWv := s.regs.keyWv ||| 1#4 <<< c.val
        rkValid := false
        kxPos := 0
        schedValid := false } }) ∧
    (∀ c : Fin 4, hostWrite (BitVec.ofNat 8 (0x20 + 4 * c.val)) 4 v s =
      .next { s with regs := { s.regs with
        state := s.regs.state.setCol c
          ⟨v.extractLsb' 24 8, v.extractLsb' 16 8, v.extractLsb' 8 8, v.extractLsb' 0 8⟩
        stateWv := s.regs.stateWv ||| 1#4 <<< c.val } }) ∧
    ∀ off : BitVec 8,
      off.toNat ∈ [0x04, 0x08, 0x0C] ∨ 0x30 ≤ off.toNat ∨ off.toNat % 4 ≠ 0 →
      hostWrite off 4 v s = .next (s.afterFault .busError (off.setWidth 32))

/-- R35: an access of another size than 4, at a misaligned offset or in the reserved range raises BUS_ERROR with
FINFO = the offset, and has no other effect; a read has no defined value. -/
def Obligations.IllegalAccessesRaiseBusError : Prop :=
  ∀ (s : State) (off : BitVec 8) (size : Nat) (v : Word32), s.Ready →
    size ≠ 4 ∨ off.toNat % 4 ≠ 0 ∨ 0xE0 ≤ off.toNat →
    s.ReadRaises off size .busError ∧
      hostWrite off size v s = .next (s.afterFault .busError (off.setWidth 32))

/-- R105, R108, R123: while BUSY = 1 and FAULT = 0, a 32-bit read of STATUS returns STATUS, and any other access raises
BUSY_VIOLATION with FINFO = the offset, before any other fault, and has no other effect. -/
def Obligations.BusyAccessesRaise : Prop :=
  ∀ (s : State) (off : BitVec 8) (size : Nat) (v : Word32), s.regs.fault = false → s.regs.busy = true →
    hostRead 0x04 4 s = .next { s with response := some s.regs.status } ∧
      (size ≠ 4 ∨ off ≠ 0x04 → s.ReadRaises off size .busyViolation) ∧
      hostWrite off size v s = .next (s.afterFault .busyViolation (off.setWidth 32))

/-- R23, R105: each bit field of STATUS is the state it names, bits [31:21] read as 0, and the FCODE field has the
number R105 gives each fault. -/
def Obligations.StatusFields : Prop :=
  ∀ r : Registers,
    r.status.getLsbD 0 = r.fault ∧ r.status.extractLsb' 1 4 = r.fcode.bits ∧ r.status.extractLsb' 5 4 = r.kxPos ∧
      r.status.getLsbD 9 = r.rkValid ∧ r.status.getLsbD 10 = r.schedValid ∧ r.status.getLsbD 11 = r.resultValid ∧
      r.status.extractLsb' 12 4 = r.keyWv ∧ r.status.extractLsb' 16 4 = r.stateWv ∧
      r.status.getLsbD 20 = r.busy ∧ r.status.extractLsb' 21 11 = 0 ∧
      (r.fcode = .none → r.status.extractLsb' 1 4 = 0) ∧
      (r.fcode = .illegalOpcode → r.status.extractLsb' 1 4 = 1) ∧
      (r.fcode = .reservedField → r.status.extractLsb' 1 4 = 2) ∧
      (r.fcode = .unwrittenOperand → r.status.extractLsb' 1 4 = 3) ∧
      (r.fcode = .noSchedule → r.status.extractLsb' 1 4 = 4) ∧
      (r.fcode = .kxOverrun → r.status.extractLsb' 1 4 = 5) ∧
      (r.fcode = .busError → r.status.extractLsb' 1 4 = 6) ∧
      (r.fcode = .unwrittenRead → r.status.extractLsb' 1 4 = 7) ∧
      (r.fcode = .busyViolation → r.status.extractLsb' 1 4 = 8)

/-- R32: the packing of a column is big-endian and loses nothing, so the four packed words of a Block, read in order,
are its flat hex string. -/
def Obligations.PackingIsBigEndian : Prop :=
  (∀ w : Column, w.pack.extractLsb' 24 8 = w.r0 ∧ w.pack.extractLsb' 16 8 = w.r1 ∧
      w.pack.extractLsb' 8 8 = w.r2 ∧ w.pack.extractLsb' 0 8 = w.r3 ∧ Column.unpack w.pack = w) ∧
    (∀ v : Word32, (Column.unpack v).pack = v) ∧
    ∀ (h : BitVec 128) (c : Fin 4), ((Block.ofHex h).col c).pack = h.extractLsb' (96 - 32 * c.val) 32

/-- R40: an equal second write of a KEY or STATE word changes nothing further, and a read that returns a value returns
it again. -/
def Obligations.RepeatedAccessesAreIdempotent : Prop :=
  (∀ (s : State) (c : Fin 4) (v : Word32), s.Ready →
      (∃ t, hostWrite (Reg.key c).offset 4 v s = .next t ∧ hostWrite (Reg.key c).offset 4 v t = .next t) ∧
        ∃ t, hostWrite (Reg.state c).offset 4 v s = .next t ∧ hostWrite (Reg.state c).offset 4 v t = .next t) ∧
    ∀ (s : State) (off : BitVec 8) (size : Nat) (w : Word32), s.regs.read off size = .ok w →
      ∃ t, hostRead off size s = .next t ∧ t.regs = s.regs ∧ t.response = some w ∧ hostRead off size t = .next t

/-- R29, R34, R7: an access that starts at one of the 0x100 byte addresses from the window's base is issued to the core
as the transaction at its offset, after those already issued, with its size and data; an access that starts at any other
host address issues nothing; and the base is 0x100-aligned. That an access belongs to the window by its start address,
even one that runs into or out of it, is the model's reading (log entry 4); the queue is the model's (log entry 1). -/
def Obligations.WindowDecoding : Prop :=
  (∀ base off : Nat, off < 0x100 → windowOffset base (base + off) = some (BitVec.ofNat 8 off)) ∧
    (∀ (s : State) (base off size : Nat) (v : Word32), off < 0x100 →
      s.issueRead base (base + off) size = { s with pending := s.pending ++ [.read (BitVec.ofNat 8 off) size] } ∧
        s.issueWrite base (base + off) size v =
          { s with pending := s.pending ++ [.write (BitVec.ofNat 8 off) size v] }) ∧
    (∀ (s : State) (base addr size : Nat) (v : Word32), addr < base ∨ base + 0x100 ≤ addr →
      s.issueRead base addr size = s ∧ s.issueWrite base addr size v = s) ∧
    Config.aescBase % 0x100 = 0

/-! GF(2^8), the S-box, the key schedule and the round stages. -/

/-- R65, R66, R69: xtime as arithmetic on the byte's number; gmul as the XOR of the multiplicand's doublings that the
multiplier's bits select; and the affine transform bit by bit. -/
def Obligations.GaloisEngineFormulas : Prop :=
  (∀ a : Byte, (xtime a).toNat = (2 * a.toNat % 256) ^^^ (if 128 ≤ a.toNat then 0x1B else 0)) ∧
    (∀ a b : Byte, gmul a b =
      (List.range 8).foldl (fun p i => if b.getLsbD i then p ^^^ (xtime^[i]) a else p) 0) ∧
    ∀ (b : Byte) (i : Fin 8), (affine b).getLsbD i.val =
      (b.getLsbD i.val ^^ b.getLsbD ((i.val + 4) % 8) ^^ b.getLsbD ((i.val + 5) % 8) ^^
        b.getLsbD ((i.val + 6) % 8) ^^ b.getLsbD ((i.val + 7) % 8) ^^ (0x63 : Byte).getLsbD i.val)

/-- R67: the laws of the multiplier. -/
def Obligations.GmulFieldLaws : Prop :=
  (∀ a b : Byte, gmul a b = gmul b a) ∧
    (∀ a b c : Byte, gmul a (gmul b c) = gmul (gmul a b) c) ∧
    (∀ a b c : Byte, gmul a (b ^^^ c) = gmul a b ^^^ gmul a c) ∧
    (∀ a : Byte, gmul a 0 = 0 ∧ gmul a 1 = a ∧ gmul a 2 = xtime a ∧ gmul a 3 = xtime a ^^^ a) ∧
    ∀ a b : Byte, gmul a b = 0 ↔ a = 0 ∨ b = 0

/-- R68: ginv gives the multiplicative inverse of every nonzero byte, the only one, and gives 0 for 0. -/
def Obligations.GinvIsTheInverse : Prop :=
  (∀ a : Byte, a ≠ 0 → gmul a (ginv a) = 1) ∧ (∀ a x : Byte, gmul a x = 1 → x = ginv a) ∧ ginv 0 = 0

/-- R7, R70, R71: both values of SBOX_IMPL give the same table: the ROM is the inverse-and-affine construction. -/
def Obligations.SboxImplementationsAgree : Prop :=
  ∀ (impl : SboxImpl) (x : Byte), sboxOf impl x = affine (ginv x) ∧ sbox x = sboxOf impl x

/-- R70: the S-box is a bijection with no fixed point and no opposite fixed point. -/
def Obligations.SboxIsBijectiveWithoutFixedPoints : Prop :=
  Function.Bijective sbox ∧ ∀ x : Byte, sbox x ≠ x ∧ sbox x ≠ x ^^^ 0xFF

/-- R76: RotWord moves each byte up one row, and on the packed word it is a rotation left by 8 bits. -/
def Obligations.RotWordRotatesTheWord : Prop :=
  (∀ w0 w1 w2 w3 : Byte, rotWord ⟨w0, w1, w2, w3⟩ = ⟨w1, w2, w3, w0⟩) ∧
    ∀ w : Column, (rotWord w).pack = w.pack <<< 8 ||| w.pack >>> 24

/-- R78: the round constants: the first is 1, each later one is xtime of the one before, and their values. -/
def Obligations.RoundConstants : Prop :=
  rcon 1 = 0x01 ∧ (∀ i, 2 ≤ i → i ≤ 10 → rcon i = xtime (rcon (i - 1))) ∧
    [1, 2, 3, 4, 5, 6, 7, 8, 9, 10].map rcon = [0x01, 0x02, 0x04, 0x08, 0x10, 0x20, 0x40, 0x80, 0x1b, 0x36]

/-- R79, R80: the recurrence of the key schedule, column by column, and the batch sequence as its iterates. R79 gives the
recurrence for i in 1..10; that it goes on at 0 and above 10, where no command evaluates it, is the model's choice
(log entry 13). -/
def Obligations.KeyScheduleRecurrence : Prop :=
  (∀ (p : Block) (i : Nat),
      (keyNext p i).col 0 =
          ⟨sbox (p.at 1 3) ^^^ rcon i ^^^ p.at 0 0, sbox (p.at 2 3) ^^^ p.at 1 0, sbox (p.at 3 3) ^^^ p.at 2 0,
            sbox (p.at 0 3) ^^^ p.at 3 0⟩ ∧
        (keyNext p i).col 1 = ((keyNext p i).col 0).xor (p.col 1) ∧
        (keyNext p i).col 2 = ((keyNext p i).col 1).xor (p.col 2) ∧
        (keyNext p i).col 3 = ((keyNext p i).col 2).xor (p.col 3)) ∧
    ∀ (k : Block), keyIter k 0 = k ∧ (∀ i, keyIter k (i + 1) = keyNext (keyIter k i) (i + 1)) ∧
      ∀ i : Fin 10, (keyExpand k)[i] = keyIter k (i.val + 1)

/-- R87, R93: ShiftRows rotates row r left by r positions; in flat bytes it is the permutation of the table; row 0 is
unchanged; and four applications are the identity. -/
def Obligations.ShiftRowsPermutes : Prop :=
  ∀ s : Block,
    (∀ r c : Fin 4, (shiftRows s).at r c = s.at r (c + r)) ∧
      (∀ k : Fin 16, (shiftRows s).byte k =
        s.byte (#v[0, 5, 10, 15, 4, 9, 14, 3, 8, 13, 2, 7, 12, 1, 6, 11] : Vector (Fin 16) 16)[k]) ∧
      (∀ c : Fin 4, (shiftRows s).at 0 c = s.at 0 c) ∧
      shiftRows (shiftRows (shiftRows (shiftRows s))) = s

/-- R88, R94: the four formulas of MixColumns with xtime for the multiplications; a column of four equal bytes is
unchanged; and the stage loses nothing. -/
def Obligations.MixColumnsFormulas : Prop :=
  (∀ (s : Block) (c : Fin 4), (mixColumns s).col c =
      ⟨xtime (s.at 0 c) ^^^ (xtime (s.at 1 c) ^^^ s.at 1 c) ^^^ s.at 2 c ^^^ s.at 3 c,
        s.at 0 c ^^^ xtime (s.at 1 c) ^^^ (xtime (s.at 2 c) ^^^ s.at 2 c) ^^^ s.at 3 c,
        s.at 0 c ^^^ s.at 1 c ^^^ xtime (s.at 2 c) ^^^ (xtime (s.at 3 c) ^^^ s.at 3 c),
        (xtime (s.at 0 c) ^^^ s.at 0 c) ^^^ s.at 1 c ^^^ s.at 2 c ^^^ xtime (s.at 3 c)⟩) ∧
    (∀ x : Byte, mixColumn ⟨x, x, x, x⟩ = ⟨x, x, x, x⟩) ∧
    Function.Injective mixColumns

/-- R60: Block XOR is bytewise, undoes itself, and of a Block with itself is all zeros. -/
def Obligations.BlockXorLaws : Prop :=
  (∀ (a b : Block) (k : Fin 16), (a.xor b).byte k = a.byte k ^^^ b.byte k) ∧
    ∀ a b : Block, (a.xor b).xor b = a ∧ a.xor a = Block.zero

/-- R86, R89, R90, R91: SubBytes puts every byte through the S-box, AddRoundKey is the XOR of Blocks, and the two rounds
are their stages in order. -/
def Obligations.RoundFunctions : Prop :=
  (∀ (s : Block) (k : Fin 16), (subBytes s).byte k = sbox (s.byte k)) ∧
    (∀ (s k : Block) (n : Fin 16), (addRoundKey s k).byte n = s.byte n ^^^ k.byte n) ∧
    (∀ s k : Block, fullRound s k = addRoundKey (mixColumns (shiftRows (subBytes s))) k) ∧
    ∀ s k : Block, finalRound s k = addRoundKey (shiftRows (subBytes s)) k

/-- R98: Encrypt is the whitening, nine full rounds with round keys 1 to 9 in order, and the final round with round
key 10. -/
def Obligations.EncryptIsTenRounds : Prop :=
  ∀ p k : Block, encryptBlock p k =
    finalRound (([1, 2, 3, 4, 5, 6, 7, 8, 9] : List Nat).foldl (fun s i => fullRound s (keyIter k i)) (addRoundKey p k))
      (keyIter k 10)

/-! Where each command completes, as `exec` runs it: `exec` does not look at FAULT or BUSY (log entry 7). -/

/-- R72, R73, R74, R70: as `exec` runs them, NOP, GF_MUL and SBOX complete whatever the state: NOP changes nothing, the
other two write RESULT and its valid bit and nothing else. `exec` does not look at FAULT or BUSY (the model's choice,
log entry 7): with FAULT = 1 the core ignores the CMD write and `exec` is not reached (R38; FaultedCoreIsQuiescent). -/
def Obligations.PrimitiveCommandsComplete : Prop :=
  ∀ (s : State) (a b : Byte),
    exec .nop s = .next s ∧
      exec (.gfMul a b) s = .next { s with regs := { s.regs with result := gmul a b, resultValid := true } } ∧
      exec (.sbox a) s = .next { s with regs := { s.regs with result := affine (ginv a), resultValid := true } }

/-- R83: KX_INIT completes when KEY is fully written: RK is KEY, RK_VALID is 1 and KX_POS is 0, and nothing else
changes. -/
def Obligations.KxInitCompletes : Prop :=
  ∀ s : State, s.regs.keyWv = 0b1111#4 →
    exec .kxInit s = .next { s with regs := { s.regs with rk := s.regs.key, rkValid := true, kxPos := 0 } }

/-- R84: KX_NEXT completes when RK is valid and KX_POS is below 10: RK is the next round key and KX_POS its number, and
nothing else changes. -/
def Obligations.KxNextCompletes : Prop :=
  ∀ s : State, s.regs.rkValid = true → s.regs.kxPos.toNat < 10 →
    exec .kxNext s = .next { s with regs := { s.regs with
      rk := keyNext s.regs.rk (s.regs.kxPos.toNat + 1)
      kxPos := BitVec.ofNat 4 (s.regs.kxPos.toNat + 1) } }

/-- R85: KX_EXPAND completes when KEY is fully written: SCHED[i] is round key i of KEY, SCHED_VALID is 1, and nothing
else changes. -/
def Obligations.KxExpandCompletes : Prop :=
  ∀ s : State, s.regs.keyWv = 0b1111#4 →
    exec .kxExpand s = .next { s with regs := { s.regs with
      sched := Vector.ofFn fun i => keyIter s.regs.key (i.val + 1)
      schedValid := true } }

/-- R92, R93, R94: SUB_BYTES, SHIFT_ROWS and MIX_COLUMNS complete when STATE is fully written: STATE is the stage of
STATE, and nothing else changes. -/
def Obligations.StageCommandsComplete : Prop :=
  ∀ s : State, s.regs.stateWv = 0b1111#4 →
    exec .subBytes s = .next { s with regs := { s.regs with state := subBytes s.regs.state } } ∧
      exec .shiftRows s = .next { s with regs := { s.regs with state := shiftRows s.regs.state } } ∧
      exec .mixColumns s = .next { s with regs := { s.regs with state := mixColumns s.regs.state } }

/-- R51, R95, R96, R97: ADD_ROUND_KEY, FULL_ROUND and FINAL_ROUND complete when STATE is fully written and the key
operand, KEY, RK or SCHED[1..10], can be read: STATE is the stage or round of STATE and that key, and nothing else
changes. -/
def Obligations.KeyedCommandsComplete : Prop :=
  ∀ (s : State) (ks : KeySel) (k : Block), s.regs.stateWv = 0b1111#4 → Supplies ks s.regs k →
    exec (.addRoundKey ks) s = .next { s with regs := { s.regs with state := s.regs.state.xor k } } ∧
      exec (.fullRound ks) s =
        .next { s with regs := { s.regs with
          state := (mixColumns (shiftRows (subBytes s.regs.state))).xor k } } ∧
      exec (.finalRound ks) s =
        .next { s with regs := { s.regs with state := (shiftRows (subBytes s.regs.state)).xor k } }

/-- R98, R99: ENCRYPT completes when STATE and KEY are fully written: STATE is Encrypt(STATE, KEY), RK is round key 10
of KEY, RK_VALID is 1 and KX_POS is 10, and nothing else changes. -/
def Obligations.EncryptCompletes : Prop :=
  ∀ s : State, s.regs.stateWv = 0b1111#4 → s.regs.keyWv = 0b1111#4 →
    exec .encrypt s = .next { s with regs := { s.regs with
      state := encryptBlock s.regs.state s.regs.key
      rk := keyIter s.regs.key 10
      rkValid := true
      kxPos := 10 } }

/-- R100: ENCRYPT_SCHED completes when STATE and KEY are fully written and SCHED is valid: STATE is whitened with KEY,
passed through full rounds with SCHED[1] to SCHED[9] and the final round with SCHED[10], and nothing else changes. -/
def Obligations.EncryptSchedCompletes : Prop :=
  ∀ s : State, s.regs.stateWv = 0b1111#4 → s.regs.keyWv = 0b1111#4 → s.regs.schedValid = true →
    exec .encryptSched s = .next { s with regs := { s.regs with
      state := finalRound
        (([0, 1, 2, 3, 4, 5, 6, 7, 8] : List (Fin 10)).foldl (fun st i => fullRound st s.regs.sched[i])
          (s.regs.state.xor s.regs.key))
        s.regs.sched[9] } }

/-! Where each command faults. -/

/-- R105, R108: a command that reads KEY, STATE or RK before it is written raises UNWRITTEN_OPERAND with FINFO = its
word (its encoding: log entry 8) and has no other effect. -/
def Obligations.UnwrittenOperandsRaise : Prop :=
  ∀ s : State, s.regs.fault = false →
    (s.regs.keyWv ≠ 0b1111#4 → ∀ i ∈ [Instr.kxInit, .kxExpand, .encrypt, .encryptSched],
      exec i s = .next (s.afterFault .unwrittenOperand (encode i))) ∧
    (s.regs.rkValid = false → exec .kxNext s = .next (s.afterFault .unwrittenOperand (encode .kxNext))) ∧
    (s.regs.stateWv ≠ 0b1111#4 → ∀ i ∈ [Instr.subBytes, .shiftRows, .mixColumns, .encrypt, .encryptSched],
      exec i s = .next (s.afterFault .unwrittenOperand (encode i))) ∧
    ∀ ks : KeySel, ks.wellFormed = true →
      s.regs.stateWv ≠ 0b1111#4 ∨ (ks = .key ∧ s.regs.keyWv ≠ 0b1111#4) ∨ (ks = .rk ∧ s.regs.rkValid = false) →
      ∀ i ∈ [Instr.addRoundKey ks, .fullRound ks, .finalRound ks],
        exec i s = .next (s.afterFault .unwrittenOperand (encode i))

/-- R105, R108: a command that reads SCHED while it is not valid, its other operands being written, raises NO_SCHEDULE
with FINFO = its word (its encoding: log entry 8) and has no other effect. -/
def Obligations.MissingScheduleRaises : Prop :=
  ∀ s : State, s.regs.fault = false → s.regs.schedValid = false → s.regs.stateWv = 0b1111#4 →
    (s.regs.keyWv = 0b1111#4 → exec .encryptSched s = .next (s.afterFault .noSchedule (encode .encryptSched))) ∧
      ∀ idx : BitVec 4, 1 ≤ idx.toNat → idx.toNat ≤ 10 →
        ∀ i ∈ [Instr.addRoundKey (.sched idx), .fullRound (.sched idx), .finalRound (.sched idx)],
          exec i s = .next (s.afterFault .noSchedule (encode i))

/-- R84, R126: KX_NEXT at position 10, and so any KX_NEXT right after an ENCRYPT that took no fault, raises KX_OVERRUN
and changes neither RK nor KX_POS. -/
def Obligations.EleventhKxNextRaises : Prop :=
  (∀ s : State, s.regs.fault = false → s.regs.rkValid = true → 10 ≤ s.regs.kxPos.toNat →
      exec .kxNext s = .next (s.afterFault .kxOverrun 0x00000011)) ∧
    ∀ s t : State, exec .encrypt s = .next t → t.regs.fault = false →
      exec .kxNext t = .next (t.afterFault .kxOverrun 0x00000011)

/-! Frames and equivalences. -/

/-- R13, R15, R19, R106, R127: what a command leaves unchanged, for all 14. No command writes KEY, a valid bit of KEY or
STATE, BUSY, or anything of the host's; only the commands the table names write STATE, the expander, SCHED or RESULT;
and the fault record and ghost bit change only by the command's own first fault, which changes nothing else (R106) and
whose FINFO is the command's encoding (the model's inference, log entry 8). -/
def Obligations.CommandFrames : Prop :=
  ∀ (i : Instr) (s t : State), exec i s = .next t →
    t.pending = s.pending ∧ t.response = s.response ∧ t.freeDraws = s.freeDraws ∧
      t.regs.key = s.regs.key ∧ t.regs.keyWv = s.regs.keyWv ∧ t.regs.stateWv = s.regs.stateWv ∧
      t.regs.busy = s.regs.busy ∧
      (Writes.state i = false → t.regs.state = s.regs.state) ∧
      (Writes.rk i = false →
        t.regs.rk = s.regs.rk ∧ t.regs.rkValid = s.regs.rkValid ∧ t.regs.kxPos = s.regs.kxPos) ∧
      (Writes.sched i = false → t.regs.sched = s.regs.sched ∧ t.regs.schedValid = s.regs.schedValid) ∧
      (Writes.result i = false → t.regs.result = s.regs.result ∧ t.regs.resultValid = s.regs.resultValid) ∧
      ((t.regs.fault = s.regs.fault ∧ t.regs.fcode = s.regs.fcode ∧ t.regs.finfo = s.regs.finfo ∧
          t.everFaulted = s.everFaulted) ∨
        (s.regs.fault = false ∧ t = s.afterFault t.regs.fcode (encode i)))

/-- R96, R97: FULL_ROUND is SUB_BYTES, SHIFT_ROWS, MIX_COLUMNS and ADD_ROUND_KEY with the same key operand, issued in
that order; FINAL_ROUND is the same without MIX_COLUMNS. -/
def Obligations.RoundsAreStageSequences : Prop :=
  ∀ (s : State) (ks : KeySel) (k : Block), s.regs.stateWv = 0b1111#4 → Supplies ks s.regs k →
    execAll [.subBytes, .shiftRows, .mixColumns, .addRoundKey ks] s = exec (.fullRound ks) s ∧
      execAll [.subBytes, .shiftRows, .addRoundKey ks] s = exec (.finalRound ks) s

/-- R82: after KX_INIT and k KX_NEXT, RK is entry k of the batch sequence and KX_POS is k; and where SCHED is valid it
is SCHED[k]. -/
def Obligations.IncrementalEqualsBatch : Prop :=
  ∀ (s : State) (i : Fin 10), s.regs.Inv → s.regs.keyWv = 0b1111#4 →
    ∃ t, execAll (.kxInit :: List.replicate (i.val + 1) .kxNext) s = .next t ∧
      t.regs.kxPos.toNat = i.val + 1 ∧ t.regs.rk = (keyExpand s.regs.key)[i] ∧
      (s.regs.schedValid = true → t.regs.rk = t.regs.sched[i])

/-- From R101: the 22 commands of ENCRYPT_STEPS reach the state a single ENCRYPT reaches, in which STATE is
Encrypt(P, KEY), RK is KeyIter(KEY, 10), RK_VALID is 1 and KX_POS is 10, with every other register unchanged. The
queue, empty at the end, and the word returned are the model's (log entries 1 and 10), and BUSY = 0 is a premise beside
R101's own, which always holds in the untimed model (log entry 5). -/
def Obligations.EncryptStepsEqualEncrypt : Prop :=
  encryptSteps.length = 22 ∧
    ∀ s : State, s.Ready → s.regs.keyWv = 0b1111#4 → s.regs.stateWv = 0b1111#4 →
      run encryptSteps s = run [cmd .encrypt] s ∧
        run [cmd .encrypt] s = .next { s with
          regs := { s.regs with
            state := encryptBlock s.regs.state s.regs.key
            rk := keyIter s.regs.key 10
            rkValid := true
            kxPos := 10 }
          pending := []
          response := none }

/-- R102: with SCHED valid, ENCRYPT_SCHED leaves STATE = Encrypt(P, KEY), the ciphertext ENCRYPT gives. -/
def Obligations.EncryptSchedAgreesWithEncrypt : Prop :=
  ∀ s : State, s.regs.Inv → s.regs.schedValid = true → s.regs.stateWv = 0b1111#4 →
    ∃ t u, exec .encryptSched s = .next t ∧ exec .encrypt s = .next u ∧
      t.regs.state = encryptBlock s.regs.state s.regs.key ∧ u.regs.state = t.regs.state

/-- R103, R104: the host's bulk procedure returns, for each plaintext Block in order, the four words of its encryption
under the key and of nothing else; for no Blocks it returns nothing. The run and the words it returns are carried by the
queue and the response field, which are the model's (log entries 1 and 10). -/
def Obligations.HostBulkEncryptsEachBlock : Prop :=
  ∀ (s : State) (k : Block) (ps : List Block), s.Ready →
    runResponses (hostBulk k ps) s = (ps.map fun p => (encryptBlock p k).words).flatten

/-- R62, R64 (host-side): a Block from a byte string is its first 16 bytes, zero-filled; a byte string of length n is
split into ceil(n / 16) Blocks, Block j from bytes 16j to 16j + 15, and only the last can be short. -/
def Obligations.HostBlockPreparation : Prop :=
  (∀ (s : List Byte) (k : Fin 16),
      (∀ h : k.val < s.length, (hostBlock s).byte k = s[k.val]) ∧ (s.length ≤ k.val → (hostBlock s).byte k = 0)) ∧
    ∀ s : List Byte,
      (hostBlocks s).length = (s.length + 15) / 16 ∧
        ∀ (j : Nat) (h : j < (hostBlocks s).length),
          (hostBlocks s)[j] = hostBlock ((s.drop (16 * j)).take 16) ∧
            (j + 1 < (hostBlocks s).length → 16 * j + 16 ≤ s.length)

end
end

