-- ==== Sys2Proof/Laws/Block.lean ====
section
/-! SUPPORT. The small lemmas of columns and Blocks. -/

namespace Sys2Proof.Machine

@[simp] theorem Column.row_ofRows (f : Fin 4 → Byte) (r : Fin 4) : (Column.ofRows f).row r = f r := by
  fin_cases r <;> rfl

@[simp] theorem Block.col_ofCols (f : Fin 4 → Column) (c : Fin 4) : (Block.ofCols f).col c = f c := by
  fin_cases c <;> rfl

/-- Columns with equal rows are equal. -/
theorem Column.ext_row {w x : Column} (h : ∀ r, w.row r = x.row r) : w = x :=
  Column.ext (h 0) (h 1) (h 2) (h 3)

/-- Blocks with equal columns are equal. -/
theorem Block.ext_col {a b : Block} (h : ∀ c, a.col c = b.col c) : a = b :=
  Block.ext (h 0) (h 1) (h 2) (h 3)

@[simp] theorem Column.row_mapRows (f : Byte → Byte) (w : Column) (r : Fin 4) : (w.mapRows f).row r = f (w.row r) := by
  simp [Column.mapRows]

@[simp] theorem Column.row_xor (w x : Column) (r : Fin 4) : (w.xor x).row r = w.row r ^^^ x.row r := by
  simp [Column.xor]

@[simp] theorem Block.col_xor (a b : Block) (c : Fin 4) : (a.xor b).col c = (a.col c).xor (b.col c) := by
  simp [Block.xor]

@[simp] theorem Block.col_mapCols (f : Column → Column) (b : Block) (c : Fin 4) : (b.mapCols f).col c = f (b.col c) := by
  simp [Block.mapCols]

/-- Writing a column and reading it back. -/
@[simp] theorem Block.col_setCol_same (b : Block) (c : Fin 4) (w : Column) : (b.setCol c w).col c = w := by
  fin_cases c <;> rfl

/-- Writing a column leaves the other columns as they were. -/
theorem Block.col_setCol_of_ne (b : Block) {c d : Fin 4} (w : Column) (h : d ≠ c) : (b.setCol c w).col d = b.col d := by
  fin_cases c <;> fin_cases d <;> first | rfl | exact absurd rfl h

end Sys2Proof.Machine
end

