-- ==== Sys2Proof/Laws/State.lean ====
section
/-! SUPPORT. One lemma per field per update of the registers and of the state, so that no proof unfolds a record
update. -/

namespace Sys2Proof.Machine

/-! `Registers.writeKey`. -/

@[simp] theorem Registers.writeKey_key (r : Registers) (c : Fin 4) (v : Word32) :
    (r.writeKey c v).key = r.key.setCol c (.unpack v) := rfl

@[simp] theorem Registers.writeKey_keyWv (r : Registers) (c : Fin 4) (v : Word32) :
    (r.writeKey c v).keyWv = r.keyWv ||| wordBit c := rfl

@[simp] theorem Registers.writeKey_state (r : Registers) (c : Fin 4) (v : Word32) :
    (r.writeKey c v).state = r.state := rfl

@[simp] theorem Registers.writeKey_stateWv (r : Registers) (c : Fin 4) (v : Word32) :
    (r.writeKey c v).stateWv = r.stateWv := rfl

@[simp] theorem Registers.writeKey_rk (r : Registers) (c : Fin 4) (v : Word32) :
    (r.writeKey c v).rk = r.rk := rfl

@[simp] theorem Registers.writeKey_rkValid (r : Registers) (c : Fin 4) (v : Word32) :
    (r.writeKey c v).rkValid = false := rfl

@[simp] theorem Registers.writeKey_kxPos (r : Registers) (c : Fin 4) (v : Word32) :
    (r.writeKey c v).kxPos = 0 := rfl

@[simp] theorem Registers.writeKey_sched (r : Registers) (c : Fin 4) (v : Word32) :
    (r.writeKey c v).sched = r.sched := rfl

@[simp] theorem Registers.writeKey_schedValid (r : Registers) (c : Fin 4) (v : Word32) :
    (r.writeKey c v).schedValid = false := rfl

@[simp] theorem Registers.writeKey_result (r : Registers) (c : Fin 4) (v : Word32) :
    (r.writeKey c v).result = r.result := rfl

@[simp] theorem Registers.writeKey_resultValid (r : Registers) (c : Fin 4) (v : Word32) :
    (r.writeKey c v).resultValid = r.resultValid := rfl

@[simp] theorem Registers.writeKey_fault (r : Registers) (c : Fin 4) (v : Word32) :
    (r.writeKey c v).fault = r.fault := rfl

@[simp] theorem Registers.writeKey_fcode (r : Registers) (c : Fin 4) (v : Word32) :
    (r.writeKey c v).fcode = r.fcode := rfl

@[simp] theorem Registers.writeKey_finfo (r : Registers) (c : Fin 4) (v : Word32) :
    (r.writeKey c v).finfo = r.finfo := rfl

@[simp] theorem Registers.writeKey_busy (r : Registers) (c : Fin 4) (v : Word32) :
    (r.writeKey c v).busy = r.busy := rfl

/-! `Registers.writeState`. -/

@[simp] theorem Registers.writeState_key (r : Registers) (c : Fin 4) (v : Word32) :
    (r.writeState c v).key = r.key := rfl

@[simp] theorem Registers.writeState_keyWv (r : Registers) (c : Fin 4) (v : Word32) :
    (r.writeState c v).keyWv = r.keyWv := rfl

@[simp] theorem Registers.writeState_state (r : Registers) (c : Fin 4) (v : Word32) :
    (r.writeState c v).state = r.state.setCol c (.unpack v) := rfl

@[simp] theorem Registers.writeState_stateWv (r : Registers) (c : Fin 4) (v : Word32) :
    (r.writeState c v).stateWv = r.stateWv ||| wordBit c := rfl

@[simp] theorem Registers.writeState_rk (r : Registers) (c : Fin 4) (v : Word32) :
    (r.writeState c v).rk = r.rk := rfl

@[simp] theorem Registers.writeState_rkValid (r : Registers) (c : Fin 4) (v : Word32) :
    (r.writeState c v).rkValid = r.rkValid := rfl

@[simp] theorem Registers.writeState_kxPos (r : Registers) (c : Fin 4) (v : Word32) :
    (r.writeState c v).kxPos = r.kxPos := rfl

@[simp] theorem Registers.writeState_sched (r : Registers) (c : Fin 4) (v : Word32) :
    (r.writeState c v).sched = r.sched := rfl

@[simp] theorem Registers.writeState_schedValid (r : Registers) (c : Fin 4) (v : Word32) :
    (r.writeState c v).schedValid = r.schedValid := rfl

@[simp] theorem Registers.writeState_result (r : Registers) (c : Fin 4) (v : Word32) :
    (r.writeState c v).result = r.result := rfl

@[simp] theorem Registers.writeState_resultValid (r : Registers) (c : Fin 4) (v : Word32) :
    (r.writeState c v).resultValid = r.resultValid := rfl

@[simp] theorem Registers.writeState_fault (r : Registers) (c : Fin 4) (v : Word32) :
    (r.writeState c v).fault = r.fault := rfl

@[simp] theorem Registers.writeState_fcode (r : Registers) (c : Fin 4) (v : Word32) :
    (r.writeState c v).fcode = r.fcode := rfl

@[simp] theorem Registers.writeState_finfo (r : Registers) (c : Fin 4) (v : Word32) :
    (r.writeState c v).finfo = r.finfo := rfl

@[simp] theorem Registers.writeState_busy (r : Registers) (c : Fin 4) (v : Word32) :
    (r.writeState c v).busy = r.busy := rfl

/-! `Registers.putState`. -/

@[simp] theorem Registers.putState_key (r : Registers) (b : Block) :
    (r.putState b).key = r.key := rfl

@[simp] theorem Registers.putState_keyWv (r : Registers) (b : Block) :
    (r.putState b).keyWv = r.keyWv := rfl

@[simp] theorem Registers.putState_state (r : Registers) (b : Block) :
    (r.putState b).state = b := rfl

@[simp] theorem Registers.putState_stateWv (r : Registers) (b : Block) :
    (r.putState b).stateWv = r.stateWv := rfl

@[simp] theorem Registers.putState_rk (r : Registers) (b : Block) :
    (r.putState b).rk = r.rk := rfl

@[simp] theorem Registers.putState_rkValid (r : Registers) (b : Block) :
    (r.putState b).rkValid = r.rkValid := rfl

@[simp] theorem Registers.putState_kxPos (r : Registers) (b : Block) :
    (r.putState b).kxPos = r.kxPos := rfl

@[simp] theorem Registers.putState_sched (r : Registers) (b : Block) :
    (r.putState b).sched = r.sched := rfl

@[simp] theorem Registers.putState_schedValid (r : Registers) (b : Block) :
    (r.putState b).schedValid = r.schedValid := rfl

@[simp] theorem Registers.putState_result (r : Registers) (b : Block) :
    (r.putState b).result = r.result := rfl

@[simp] theorem Registers.putState_resultValid (r : Registers) (b : Block) :
    (r.putState b).resultValid = r.resultValid := rfl

@[simp] theorem Registers.putState_fault (r : Registers) (b : Block) :
    (r.putState b).fault = r.fault := rfl

@[simp] theorem Registers.putState_fcode (r : Registers) (b : Block) :
    (r.putState b).fcode = r.fcode := rfl

@[simp] theorem Registers.putState_finfo (r : Registers) (b : Block) :
    (r.putState b).finfo = r.finfo := rfl

@[simp] theorem Registers.putState_busy (r : Registers) (b : Block) :
    (r.putState b).busy = r.busy := rfl

/-! `Registers.putRk`. -/

@[simp] theorem Registers.putRk_key (r : Registers) (b : Block) (p : BitVec 4) :
    (r.putRk b p).key = r.key := rfl

@[simp] theorem Registers.putRk_keyWv (r : Registers) (b : Block) (p : BitVec 4) :
    (r.putRk b p).keyWv = r.keyWv := rfl

@[simp] theorem Registers.putRk_state (r : Registers) (b : Block) (p : BitVec 4) :
    (r.putRk b p).state = r.state := rfl

@[simp] theorem Registers.putRk_stateWv (r : Registers) (b : Block) (p : BitVec 4) :
    (r.putRk b p).stateWv = r.stateWv := rfl

@[simp] theorem Registers.putRk_rk (r : Registers) (b : Block) (p : BitVec 4) :
    (r.putRk b p).rk = b := rfl

@[simp] theorem Registers.putRk_rkValid (r : Registers) (b : Block) (p : BitVec 4) :
    (r.putRk b p).rkValid = true := rfl

@[simp] theorem Registers.putRk_kxPos (r : Registers) (b : Block) (p : BitVec 4) :
    (r.putRk b p).kxPos = p := rfl

@[simp] theorem Registers.putRk_sched (r : Registers) (b : Block) (p : BitVec 4) :
    (r.putRk b p).sched = r.sched := rfl

@[simp] theorem Registers.putRk_schedValid (r : Registers) (b : Block) (p : BitVec 4) :
    (r.putRk b p).schedValid = r.schedValid := rfl

@[simp] theorem Registers.putRk_result (r : Registers) (b : Block) (p : BitVec 4) :
    (r.putRk b p).result = r.result := rfl

@[simp] theorem Registers.putRk_resultValid (r : Registers) (b : Block) (p : BitVec 4) :
    (r.putRk b p).resultValid = r.resultValid := rfl

@[simp] theorem Registers.putRk_fault (r : Registers) (b : Block) (p : BitVec 4) :
    (r.putRk b p).fault = r.fault := rfl

@[simp] theorem Registers.putRk_fcode (r : Registers) (b : Block) (p : BitVec 4) :
    (r.putRk b p).fcode = r.fcode := rfl

@[simp] theorem Registers.putRk_finfo (r : Registers) (b : Block) (p : BitVec 4) :
    (r.putRk b p).finfo = r.finfo := rfl

@[simp] theorem Registers.putRk_busy (r : Registers) (b : Block) (p : BitVec 4) :
    (r.putRk b p).busy = r.busy := rfl

/-! `Registers.putSched`. -/

@[simp] theorem Registers.putSched_key (r : Registers) (ks : Vector Block 10) :
    (r.putSched ks).key = r.key := rfl

@[simp] theorem Registers.putSched_keyWv (r : Registers) (ks : Vector Block 10) :
    (r.putSched ks).keyWv = r.keyWv := rfl

@[simp] theorem Registers.putSched_state (r : Registers) (ks : Vector Block 10) :
    (r.putSched ks).state = r.state := rfl

@[simp] theorem Registers.putSched_stateWv (r : Registers) (ks : Vector Block 10) :
    (r.putSched ks).stateWv = r.stateWv := rfl

@[simp] theorem Registers.putSched_rk (r : Registers) (ks : Vector Block 10) :
    (r.putSched ks).rk = r.rk := rfl

@[simp] theorem Registers.putSched_rkValid (r : Registers) (ks : Vector Block 10) :
    (r.putSched ks).rkValid = r.rkValid := rfl

@[simp] theorem Registers.putSched_kxPos (r : Registers) (ks : Vector Block 10) :
    (r.putSched ks).kxPos = r.kxPos := rfl

@[simp] theorem Registers.putSched_sched (r : Registers) (ks : Vector Block 10) :
    (r.putSched ks).sched = ks := rfl

@[simp] theorem Registers.putSched_schedValid (r : Registers) (ks : Vector Block 10) :
    (r.putSched ks).schedValid = true := rfl

@[simp] theorem Registers.putSched_result (r : Registers) (ks : Vector Block 10) :
    (r.putSched ks).result = r.result := rfl

@[simp] theorem Registers.putSched_resultValid (r : Registers) (ks : Vector Block 10) :
    (r.putSched ks).resultValid = r.resultValid := rfl

@[simp] theorem Registers.putSched_fault (r : Registers) (ks : Vector Block 10) :
    (r.putSched ks).fault = r.fault := rfl

@[simp] theorem Registers.putSched_fcode (r : Registers) (ks : Vector Block 10) :
    (r.putSched ks).fcode = r.fcode := rfl

@[simp] theorem Registers.putSched_finfo (r : Registers) (ks : Vector Block 10) :
    (r.putSched ks).finfo = r.finfo := rfl

@[simp] theorem Registers.putSched_busy (r : Registers) (ks : Vector Block 10) :
    (r.putSched ks).busy = r.busy := rfl

/-! `Registers.putResult`. -/

@[simp] theorem Registers.putResult_key (r : Registers) (b : Byte) :
    (r.putResult b).key = r.key := rfl

@[simp] theorem Registers.putResult_keyWv (r : Registers) (b : Byte) :
    (r.putResult b).keyWv = r.keyWv := rfl

@[simp] theorem Registers.putResult_state (r : Registers) (b : Byte) :
    (r.putResult b).state = r.state := rfl

@[simp] theorem Registers.putResult_stateWv (r : Registers) (b : Byte) :
    (r.putResult b).stateWv = r.stateWv := rfl

@[simp] theorem Registers.putResult_rk (r : Registers) (b : Byte) :
    (r.putResult b).rk = r.rk := rfl

@[simp] theorem Registers.putResult_rkValid (r : Registers) (b : Byte) :
    (r.putResult b).rkValid = r.rkValid := rfl

@[simp] theorem Registers.putResult_kxPos (r : Registers) (b : Byte) :
    (r.putResult b).kxPos = r.kxPos := rfl

@[simp] theorem Registers.putResult_sched (r : Registers) (b : Byte) :
    (r.putResult b).sched = r.sched := rfl

@[simp] theorem Registers.putResult_schedValid (r : Registers) (b : Byte) :
    (r.putResult b).schedValid = r.schedValid := rfl

@[simp] theorem Registers.putResult_result (r : Registers) (b : Byte) :
    (r.putResult b).result = b := rfl

@[simp] theorem Registers.putResult_resultValid (r : Registers) (b : Byte) :
    (r.putResult b).resultValid = true := rfl

@[simp] theorem Registers.putResult_fault (r : Registers) (b : Byte) :
    (r.putResult b).fault = r.fault := rfl

@[simp] theorem Registers.putResult_fcode (r : Registers) (b : Byte) :
    (r.putResult b).fcode = r.fcode := rfl

@[simp] theorem Registers.putResult_finfo (r : Registers) (b : Byte) :
    (r.putResult b).finfo = r.finfo := rfl

@[simp] theorem Registers.putResult_busy (r : Registers) (b : Byte) :
    (r.putResult b).busy = r.busy := rfl

/-! `Registers.recordFault`. -/

@[simp] theorem Registers.recordFault_key (r : Registers) (code : FaultCode) (info : Word32) :
    (r.recordFault code info).key = r.key := rfl

@[simp] theorem Registers.recordFault_keyWv (r : Registers) (code : FaultCode) (info : Word32) :
    (r.recordFault code info).keyWv = r.keyWv := rfl

@[simp] theorem Registers.recordFault_state (r : Registers) (code : FaultCode) (info : Word32) :
    (r.recordFault code info).state = r.state := rfl

@[simp] theorem Registers.recordFault_stateWv (r : Registers) (code : FaultCode) (info : Word32) :
    (r.recordFault code info).stateWv = r.stateWv := rfl

@[simp] theorem Registers.recordFault_rk (r : Registers) (code : FaultCode) (info : Word32) :
    (r.recordFault code info).rk = r.rk := rfl

@[simp] theorem Registers.recordFault_rkValid (r : Registers) (code : FaultCode) (info : Word32) :
    (r.recordFault code info).rkValid = r.rkValid := rfl

@[simp] theorem Registers.recordFault_kxPos (r : Registers) (code : FaultCode) (info : Word32) :
    (r.recordFault code info).kxPos = r.kxPos := rfl

@[simp] theorem Registers.recordFault_sched (r : Registers) (code : FaultCode) (info : Word32) :
    (r.recordFault code info).sched = r.sched := rfl

@[simp] theorem Registers.recordFault_schedValid (r : Registers) (code : FaultCode) (info : Word32) :
    (r.recordFault code info).schedValid = r.schedValid := rfl

@[simp] theorem Registers.recordFault_result (r : Registers) (code : FaultCode) (info : Word32) :
    (r.recordFault code info).result = r.result := rfl

@[simp] theorem Registers.recordFault_resultValid (r : Registers) (code : FaultCode) (info : Word32) :
    (r.recordFault code info).resultValid = r.resultValid := rfl

@[simp] theorem Registers.recordFault_fault (r : Registers) (code : FaultCode) (info : Word32) :
    (r.recordFault code info).fault = true := rfl

@[simp] theorem Registers.recordFault_fcode (r : Registers) (code : FaultCode) (info : Word32) :
    (r.recordFault code info).fcode = code := rfl

@[simp] theorem Registers.recordFault_finfo (r : Registers) (code : FaultCode) (info : Word32) :
    (r.recordFault code info).finfo = info := rfl

@[simp] theorem Registers.recordFault_busy (r : Registers) (code : FaultCode) (info : Word32) :
    (r.recordFault code info).busy = r.busy := rfl

/-! `State.setRegs`. -/

@[simp] theorem State.setRegs_regs (s : State) (r : Registers) :
    (s.setRegs r).regs = r := rfl

@[simp] theorem State.setRegs_pending (s : State) (r : Registers) :
    (s.setRegs r).pending = s.pending := rfl

@[simp] theorem State.setRegs_response (s : State) (r : Registers) :
    (s.setRegs r).response = s.response := rfl

@[simp] theorem State.setRegs_everFaulted (s : State) (r : Registers) :
    (s.setRegs r).everFaulted = s.everFaulted := rfl

@[simp] theorem State.setRegs_freeDraws (s : State) (r : Registers) :
    (s.setRegs r).freeDraws = s.freeDraws := rfl

/-! `State.assertReset`. -/

@[simp] theorem State.assertReset_regs (s : State) :
    s.assertReset.regs = .reset s.freeDraws := rfl

@[simp] theorem State.assertReset_pending (s : State) :
    s.assertReset.pending = s.pending := rfl

@[simp] theorem State.assertReset_response (s : State) :
    s.assertReset.response = s.response := rfl

@[simp] theorem State.assertReset_everFaulted (s : State) :
    s.assertReset.everFaulted = s.everFaulted := rfl

@[simp] theorem State.assertReset_freeDraws (s : State) :
    s.assertReset.freeDraws = s.freeDraws + 1 := rfl

/-! `State.respond`. -/

@[simp] theorem State.respond_regs (s : State) (v : Word32) :
    (s.respond v).regs = s.regs := rfl

@[simp] theorem State.respond_pending (s : State) (v : Word32) :
    (s.respond v).pending = s.pending := rfl

@[simp] theorem State.respond_response (s : State) (v : Word32) :
    (s.respond v).response = some v := rfl

@[simp] theorem State.respond_everFaulted (s : State) (v : Word32) :
    (s.respond v).everFaulted = s.everFaulted := rfl

@[simp] theorem State.respond_freeDraws (s : State) (v : Word32) :
    (s.respond v).freeDraws = s.freeDraws := rfl

/-! `State.respondFree`. -/

@[simp] theorem State.respondFree_regs (s : State) :
    s.respondFree.regs = s.regs := rfl

@[simp] theorem State.respondFree_pending (s : State) :
    s.respondFree.pending = s.pending := rfl

@[simp] theorem State.respondFree_response (s : State) :
    s.respondFree.response = some (Config.freeReadWord s.freeDraws) := rfl

@[simp] theorem State.respondFree_everFaulted (s : State) :
    s.respondFree.everFaulted = s.everFaulted := rfl

@[simp] theorem State.respondFree_freeDraws (s : State) :
    s.respondFree.freeDraws = s.freeDraws + 1 := rfl

/-! `State.take`. -/

@[simp] theorem State.take_regs (s : State) (ts : List Transaction) :
    (s.take ts).regs = s.regs := rfl

@[simp] theorem State.take_pending (s : State) (ts : List Transaction) :
    (s.take ts).pending = ts := rfl

@[simp] theorem State.take_response (s : State) (ts : List Transaction) :
    (s.take ts).response = none := rfl

@[simp] theorem State.take_everFaulted (s : State) (ts : List Transaction) :
    (s.take ts).everFaulted = s.everFaulted := rfl

@[simp] theorem State.take_freeDraws (s : State) (ts : List Transaction) :
    (s.take ts).freeDraws = s.freeDraws := rfl

/-! `State.issue`. -/

@[simp] theorem State.issue_regs (s : State) (t : Transaction) :
    (s.issue t).regs = s.regs := rfl

@[simp] theorem State.issue_pending (s : State) (t : Transaction) :
    (s.issue t).pending = s.pending ++ [t] := rfl

@[simp] theorem State.issue_response (s : State) (t : Transaction) :
    (s.issue t).response = s.response := rfl

@[simp] theorem State.issue_everFaulted (s : State) (t : Transaction) :
    (s.issue t).everFaulted = s.everFaulted := rfl

@[simp] theorem State.issue_freeDraws (s : State) (t : Transaction) :
    (s.issue t).freeDraws = s.freeDraws := rfl

/-! `State.issueCommandFirst`. -/

@[simp] theorem State.issueCommandFirst_regs (s : State) (v : Word32) :
    (s.issueCommandFirst v).regs = s.regs := rfl

@[simp] theorem State.issueCommandFirst_pending (s : State) (v : Word32) :
    (s.issueCommandFirst v).pending = .write Reg.cmd.offset 4 v :: s.pending := rfl

@[simp] theorem State.issueCommandFirst_response (s : State) (v : Word32) :
    (s.issueCommandFirst v).response = s.response := rfl

@[simp] theorem State.issueCommandFirst_everFaulted (s : State) (v : Word32) :
    (s.issueCommandFirst v).everFaulted = s.everFaulted := rfl

@[simp] theorem State.issueCommandFirst_freeDraws (s : State) (v : Word32) :
    (s.issueCommandFirst v).freeDraws = s.freeDraws := rfl

/-! `State.raise`. -/

/-- With FAULT = 0 a raise records the fault and sets the ghost bit (60_exceptions.md R106). -/
theorem State.raise_of_not_fault (s : State) (code : FaultCode) (info : Word32) (h : s.regs.fault = false) :
    s.raise code info = { s with regs := s.regs.recordFault code info, everFaulted := true } := by
  simp [State.raise, h]

/-- With FAULT = 1 a raise records nothing (60_exceptions.md R109). -/
theorem State.raise_of_fault (s : State) (code : FaultCode) (info : Word32) (h : s.regs.fault = true) :
    s.raise code info = s := by
  simp [State.raise, h]

@[simp] theorem State.raise_pending (s : State) (code : FaultCode) (info : Word32) :
    (s.raise code info).pending = s.pending := by
  unfold State.raise
  split <;> rfl

@[simp] theorem State.raise_response (s : State) (code : FaultCode) (info : Word32) :
    (s.raise code info).response = s.response := by
  unfold State.raise
  split <;> rfl

@[simp] theorem State.raise_freeDraws (s : State) (code : FaultCode) (info : Word32) :
    (s.raise code info).freeDraws = s.freeDraws := by
  unfold State.raise
  split <;> rfl

end Sys2Proof.Machine
end

