-- ==== Sys2Proof/Laws/Ops.lean ====
section
/-! SUPPORT. What each shared operation of the commands can do, said once. -/

namespace Sys2Proof.Machine

/-! `require` (00_scope.md R10). -/

@[simp] theorem require_true {α : Type} (code : FaultCode) (k : Except FaultCode α) : require true code k = k := rfl

@[simp] theorem require_false {α : Type} (code : FaultCode) (k : Except FaultCode α) :
    require false code k = .error code := rfl

/-- A `require` lets a value through iff its condition holds. -/
theorem require_eq_ok {α : Type} {cond : Bool} {code : FaultCode} {k : Except FaultCode α} {a : α} :
    require cond code k = .ok a ↔ cond = true ∧ k = .ok a := by
  cases cond <;> simp

/-- A `require` faults with its own code, or passes on the fault behind it. -/
theorem require_eq_error {α : Type} {cond : Bool} {code c : FaultCode} {k : Except FaultCode α} :
    require cond code k = .error c ↔ (cond = false ∧ code = c) ∨ (cond = true ∧ k = .error c) := by
  cases cond <;> simp

/-! `complete` (00_scope.md R10, 60_exceptions.md R106). -/

@[simp] theorem complete_ok (word : Word32) (r : Registers) (s : State) :
    complete word (.ok r) s = .next (s.setRegs r) := rfl

@[simp] theorem complete_error (word : Word32) (code : FaultCode) (s : State) :
    complete word (.error code) s = .next (s.raise code word) := rfl

/-- A command answers a next state in one of two ways: its registers are written, or its fault is raised. -/
theorem complete_eq_next {word : Word32} {res : Except FaultCode Registers} {s t : State}
    (h : complete word res s = .next t) :
    (∃ r, res = .ok r ∧ t = s.setRegs r) ∨ (∃ code, res = .error code ∧ t = s.raise code word) := by
  cases res with
  | ok r => exact .inl ⟨r, rfl, (Host.Outcome.next.inj h).symm⟩
  | error code => exact .inr ⟨code, rfl, (Host.Outcome.next.inj h).symm⟩

/-- A command always answers a next state. -/
theorem complete_next (word : Word32) (res : Except FaultCode Registers) (s : State) :
    ∃ t, complete word res s = .next t := by
  cases res <;> exact ⟨_, rfl⟩

/-! Operands (30_encoding.md R51). -/

/-- A read of KEY gives KEY, all of it written. -/
theorem withKey_eq_ok {α : Type} {r : Registers} {k : Block → Except FaultCode α} {a : α} :
    withKey r k = .ok a ↔ r.keyFull = true ∧ k r.key = .ok a := require_eq_ok

/-- A read of STATE gives STATE, all of it written. -/
theorem withState_eq_ok {α : Type} {r : Registers} {k : Block → Except FaultCode α} {a : α} :
    withState r k = .ok a ↔ r.stateFull = true ∧ k r.state = .ok a := require_eq_ok

/-- A read of RK gives RK, which holds a value. -/
theorem withRk_eq_ok {α : Type} {r : Registers} {k : Block → Except FaultCode α} {a : α} :
    withRk r k = .ok a ↔ r.rkValid = true ∧ k r.rk = .ok a := require_eq_ok

/-- A read of SCHED gives SCHED, which holds the schedule of KEY. -/
theorem withSched_eq_ok {α : Type} {r : Registers} {k : Vector Block 10 → Except FaultCode α} {a : α} :
    withSched r k = .ok a ↔ r.schedValid = true ∧ k r.sched = .ok a := require_eq_ok

/-- The place of a schedule index, in range or not. -/
theorem schedIndex_eq_some {idx : BitVec 4} {i : Fin 10} : schedIndex idx = some i ↔ idx.toNat = i.val + 1 := by
  unfold schedIndex
  split
  · rw [Option.some_inj, Fin.ext_iff]
    simp only
    omega
  · simp only [reduceCtorEq, false_iff]
    omega

/-- A key operand that is read comes from one of its three sources, which is valid. -/
theorem withKeySrc_eq_ok {α : Type} {ks : KeySel} {r : Registers} {k : Block → Except FaultCode α} {a : α}
    (h : withKeySrc ks r k = .ok a) :
    (ks = .key ∧ r.keyFull = true ∧ k r.key = .ok a) ∨ (ks = .rk ∧ r.rkValid = true ∧ k r.rk = .ok a) ∨
      (∃ (idx : BitVec 4) (i : Fin 10), ks = .sched idx ∧ idx.toNat = i.val + 1 ∧ r.schedValid = true ∧
        k r.sched[i] = .ok a) := by
  cases ks with
  | key => exact .inl ⟨rfl, withKey_eq_ok.mp h⟩
  | rk => exact .inr (.inl ⟨rfl, withRk_eq_ok.mp h⟩)
  | sched idx =>
    simp only [withKeySrc] at h
    split at h
    · cases h
    · rename_i i hi
      exact .inr (.inr ⟨idx, i, rfl, schedIndex_eq_some.mp hi, withSched_eq_ok.mp h⟩)

/-- A stage command writes STATE only, from a STATE that is fully written. -/
theorem stageResult_eq_ok {f : Block → Block} {r q : Registers} (h : stageResult f r = .ok q) :
    r.stateFull = true ∧ q = r.putState (f r.state) := by
  obtain ⟨hs, hq⟩ := withState_eq_ok.mp h
  exact ⟨hs, (Except.ok.inj hq).symm⟩

/-- A keyed command writes STATE only, from a STATE that is fully written and some key Block. -/
theorem keyedResult_eq_ok {f : Block → Block → Block} {ks : KeySel} {r q : Registers}
    (h : keyedResult f ks r = .ok q) : r.stateFull = true ∧ ∃ k, q = r.putState (f r.state k) := by
  obtain ⟨-, h⟩ := require_eq_ok.mp h
  obtain ⟨hs, h⟩ := withState_eq_ok.mp h
  refine ⟨hs, ?_⟩
  rcases withKeySrc_eq_ok h with ⟨_, _, hq⟩ | ⟨_, _, hq⟩ | ⟨_, _, _, _, _, hq⟩ <;>
    exact ⟨_, (Except.ok.inj hq).symm⟩

end Sys2Proof.Machine
end

