-- ==== Sys2Proof/Laws/Exec.lean ====
section
/-! SUPPORT. What the execution of a command can do, said once for all 14 commands. -/

namespace Sys2Proof.Machine

/-- The registers a command leaves, or its fault: the pseudocode of the command's rule. -/
def commandResult (i : Instr) (r : Registers) : Except FaultCode Registers :=
  match i with
  | .nop => .ok r
  | .gfMul a b => .ok (r.putResult (gmul a b))
  | .sbox a => .ok (r.putResult (sbox a))
  | .kxInit => withKey r fun key => .ok (r.putRk key 0)
  | .kxNext =>
    withRk r fun rk =>
      require (r.kxPos < 10) .kxOverrun (.ok (r.putRk (keyNext rk (r.kxPos + 1).toNat) (r.kxPos + 1)))
  | .kxExpand => withKey r fun key => .ok (r.putSched (keyExpand key))
  | .subBytes => stageResult subBytes r
  | .shiftRows => stageResult shiftRows r
  | .mixColumns => stageResult mixColumns r
  | .addRoundKey ks => keyedResult addRoundKey ks r
  | .fullRound ks => keyedResult fullRound ks r
  | .finalRound ks => keyedResult finalRound ks r
  | .encrypt =>
    withState r fun st => withKey r fun key =>
      .ok ((r.putState (encryptFresh st key).1).putRk (encryptFresh st key).2 10)
  | .encryptSched =>
    withState r fun st => withKey r fun key => withSched r fun sched => .ok (r.putState (encryptWith st key sched))

/-- Every command is its result, completed under its own word. -/
theorem exec_eq_complete (i : Instr) (s : State) : exec i s = complete (encode i) (commandResult i s.regs) s := by
  cases i <;> rfl

/-- The ways a command's result can be registers: which ones it writes, from which operands. -/
theorem commandResult_eq_ok {i : Instr} {r q : Registers} (h : commandResult i r = .ok q) :
    q = r ∨ (∃ b, q = r.putResult b) ∨ (r.keyFull = true ∧ q = r.putRk r.key 0) ∨
      (r.rkValid = true ∧ r.kxPos < 10 ∧ q = r.putRk (keyNext r.rk (r.kxPos + 1).toNat) (r.kxPos + 1)) ∨
      (r.keyFull = true ∧ q = r.putSched (keyExpand r.key)) ∨ (r.stateFull = true ∧ ∃ b, q = r.putState b) ∨
      (r.stateFull = true ∧ r.keyFull = true ∧
        q = (r.putState (encryptFresh r.state r.key).1).putRk (encryptFresh r.state r.key).2 10) := by
  cases i <;> dsimp only [commandResult] at h
  case nop => exact .inl (Except.ok.inj h).symm
  case gfMul a b => exact .inr (.inl ⟨_, (Except.ok.inj h).symm⟩)
  case sbox a => exact .inr (.inl ⟨_, (Except.ok.inj h).symm⟩)
  case kxInit =>
    obtain ⟨hk, hq⟩ := withKey_eq_ok.mp h
    exact .inr (.inr (.inl ⟨hk, (Except.ok.inj hq).symm⟩))
  case kxNext =>
    obtain ⟨hr, h⟩ := withRk_eq_ok.mp h
    obtain ⟨hp, hq⟩ := require_eq_ok.mp h
    exact .inr (.inr (.inr (.inl ⟨hr, of_decide_eq_true hp, (Except.ok.inj hq).symm⟩)))
  case kxExpand =>
    obtain ⟨hk, hq⟩ := withKey_eq_ok.mp h
    exact .inr (.inr (.inr (.inr (.inl ⟨hk, (Except.ok.inj hq).symm⟩))))
  case subBytes | shiftRows | mixColumns =>
    obtain ⟨hs, hq⟩ := stageResult_eq_ok h
    exact .inr (.inr (.inr (.inr (.inr (.inl ⟨hs, _, hq⟩)))))
  case addRoundKey ks | fullRound ks | finalRound ks =>
    obtain ⟨hs, k, hq⟩ := keyedResult_eq_ok h
    exact .inr (.inr (.inr (.inr (.inr (.inl ⟨hs, _, hq⟩)))))
  case encrypt =>
    obtain ⟨hs, h⟩ := withState_eq_ok.mp h
    obtain ⟨hk, hq⟩ := withKey_eq_ok.mp h
    exact .inr (.inr (.inr (.inr (.inr (.inr ⟨hs, hk, (Except.ok.inj hq).symm⟩)))))
  case encryptSched =>
    obtain ⟨hs, h⟩ := withState_eq_ok.mp h
    obtain ⟨-, h⟩ := withKey_eq_ok.mp h
    obtain ⟨-, hq⟩ := withSched_eq_ok.mp h
    exact .inr (.inr (.inr (.inr (.inr (.inl ⟨hs, _, (Except.ok.inj hq).symm⟩)))))

/-- A command's next state: its registers written, or its fault raised under its own word. -/
theorem exec_eq_next {i : Instr} {s t : State} (h : exec i s = .next t) :
    (∃ r, commandResult i s.regs = .ok r ∧ t = s.setRegs r) ∨
      (∃ code, commandResult i s.regs = .error code ∧ t = s.raise code (encode i)) := by
  rw [exec_eq_complete] at h
  exact complete_eq_next h

end Sys2Proof.Machine
end

