-- ==== Sys2Proof/Laws/Bus.lean ====
section
/-! SUPPORT. What a transaction, and so a step, can do, said once. -/

namespace Sys2Proof.Machine

/-- An access that gets through is a 4-byte access of a word of the map, to an idle core or to STATUS. -/
theorem access_eq_ok {α : Type} {r : Registers} {isRead : Bool} {off : BitVec 8} {size : Nat}
    {k : Reg → Except FaultCode α} {a : α} (h : access r isRead off size k = .ok a) :
    size = 4 ∧ ∃ reg, regAt off = some reg ∧ k reg = .ok a ∧ (r.busy = true → reg = .status ∧ isRead = true) := by
  obtain ⟨hb, h⟩ := require_eq_ok.mp h
  obtain ⟨hs, h⟩ := require_eq_ok.mp h
  split at h
  · cases h
  · rename_i reg hreg
    refine ⟨by simpa using hs, reg, hreg, h, fun hbusy => ?_⟩
    simp [hbusy, hreg] at hb
    exact ⟨hb.2, hb.1.1⟩

/-- A read of a register word returns its packed contents, under its valid bit. -/
theorem readReg_eq_ok {r : Registers} {reg : Reg} {v : Word32} (h : r.readReg reg = .ok v) :
    (reg = .cmd ∧ v = 0) ∨ (reg = .status ∧ v = r.status) ∨ (reg = .finfo ∧ v = r.finfo) ∨
      (reg = .result ∧ r.resultValid = true ∧ v = r.result.setWidth 32) ∨
      (∃ c, reg = .key c ∧ r.keyWv.getLsbD c.val = true ∧ v = (r.key.col c).pack) ∨
      (∃ c, reg = .state c ∧ r.stateWv.getLsbD c.val = true ∧ v = (r.state.col c).pack) ∨
      (∃ c, reg = .rk c ∧ r.rkValid = true ∧ v = (r.rk.col c).pack) ∨
      (∃ i c, reg = .sched i c ∧ r.schedValid = true ∧ v = (r.sched[i].col c).pack) := by
  cases reg <;> simp only [Registers.readReg, require_eq_ok, Except.ok.injEq] at h <;> simp_all

/-- A host read answers one of two next states. -/
theorem hostRead_eq_next {off : BitVec 8} {size : Nat} {s t : State} (h : hostRead off size s = .next t) :
    (∃ v, s.regs.read off size = .ok v ∧ t = s.respond v) ∨
      (∃ code, s.regs.read off size = .error code ∧ t = (s.raise code (off.setWidth 32)).respondFree) := by
  unfold hostRead at h
  split at h <;> rename_i hr
  · exact .inl ⟨_, hr, (Host.Outcome.next.inj h).symm⟩
  · exact .inr ⟨_, hr, (Host.Outcome.next.inj h).symm⟩

/-- A command word is executed, or refused by the decoder. -/
theorem command_eq_next {v : Word32} {s t : State} (h : command v s = .next t) :
    (∃ i, decode v = .ok i ∧ exec i s = .next t) ∨
      (∃ e, decode v = .error e ∧ t = s.raise (rejectCode e) v) := by
  unfold command at h
  split at h <;> rename_i hd
  · exact .inl ⟨_, hd, h⟩
  · exact .inr ⟨_, hd, (Host.Outcome.next.inj h).symm⟩

/-- A host write is ignored, or it runs a command, writes a word of KEY or STATE, or raises its fault. -/
theorem hostWrite_eq_next {off : BitVec 8} {size : Nat} {v : Word32} {s t : State}
    (h : hostWrite off size v s = .next t) :
    (s.regs.fault = true ∧ t = s) ∨
      (s.regs.fault = false ∧
        (command v s = .next t ∨ (∃ c, t = s.setRegs (s.regs.writeKey c v)) ∨
          (∃ c, t = s.setRegs (s.regs.writeState c v)) ∨ ∃ code, code ≠ .none ∧ t = s.raise code (off.setWidth 32))) := by
  unfold hostWrite at h
  split at h
  · rename_i hf
    exact .inl ⟨hf, (Host.Outcome.next.inj h).symm⟩
  · rename_i hf
    refine .inr ⟨by simpa using hf, ?_⟩
    split at h
    · rename_i reg _
      cases reg with
      | cmd => exact .inl h
      | key c => exact .inr (.inl ⟨c, (Host.Outcome.next.inj h).symm⟩)
      | state c => exact .inr (.inr (.inl ⟨c, (Host.Outcome.next.inj h).symm⟩))
      | status | finfo | result | rk _ | sched _ _ =>
        exact .inr (.inr (.inr ⟨.busError, by decide, (Host.Outcome.next.inj h).symm⟩))
    · rename_i code hc
      refine .inr (.inr (.inr ⟨code, ?_, (Host.Outcome.next.inj h).symm⟩))
      rintro rfl
      simp only [Registers.writeTarget, access, require_eq_error] at hc
      split at hc <;> simp_all

/-- A step with a transaction pending takes it. -/
theorem step_of_pending {s : State} {x : Transaction} {rest : List Transaction} (h : s.pending = x :: rest) :
    step s = transact x (s.take rest) := by
  simp [step, takeTransaction, h]

/-- A step with nothing pending leaves the machine as it is (20_memory.md R28). -/
theorem step_of_idle {s : State} (h : s.pending = []) : step s = .next s := by
  simp [step, takeTransaction, h]

end Sys2Proof.Machine
end

