-- ==== Sys2Proof/Laws/Decode.lean ====
section
/-! SUPPORT. The fields of an assembled command word are the fields it was assembled from, and a word is its fields. -/

namespace Sys2Proof

@[simp] theorem opOf_assemble (op : BitVec 8) (idx : BitVec 4) (ksel : BitVec 2) (a b : Byte) :
    opOf (assemble op idx ksel a b) = op := by
  ext i hi
  interval_cases i <;> simp [opOf, assemble]

@[simp] theorem idxOf_assemble (op : BitVec 8) (idx : BitVec 4) (ksel : BitVec 2) (a b : Byte) :
    idxOf (assemble op idx ksel a b) = idx := by
  ext i hi
  interval_cases i <;> simp [idxOf, assemble]

@[simp] theorem kselOf_assemble (op : BitVec 8) (idx : BitVec 4) (ksel : BitVec 2) (a b : Byte) :
    kselOf (assemble op idx ksel a b) = ksel := by
  ext i hi
  interval_cases i <;> simp [kselOf, assemble]

@[simp] theorem rsvOf_assemble (op : BitVec 8) (idx : BitVec 4) (ksel : BitVec 2) (a b : Byte) :
    rsvOf (assemble op idx ksel a b) = 0 := by
  ext i hi
  interval_cases i <;> simp [rsvOf, assemble]

@[simp] theorem aOf_assemble (op : BitVec 8) (idx : BitVec 4) (ksel : BitVec 2) (a b : Byte) :
    aOf (assemble op idx ksel a b) = a := by
  ext i hi
  interval_cases i <;> simp [aOf, assemble]

@[simp] theorem bOf_assemble (op : BitVec 8) (idx : BitVec 4) (ksel : BitVec 2) (a b : Byte) :
    bOf (assemble op idx ksel a b) = b := by
  ext i hi
  interval_cases i <;> simp [bOf, assemble]

/-- A word with RSV = 0 is the assembly of its own fields. -/
theorem assemble_fields (v : Word32) (h : rsvOf v = 0) :
    assemble (opOf v) (idxOf v) (kselOf v) (aOf v) (bOf v) = v := by
  have h14 : v[14] = false := by simpa [rsvOf] using congrArg (fun x : BitVec 2 => x[0]) h
  have h15 : v[15] = false := by simpa [rsvOf] using congrArg (fun x : BitVec 2 => x[1]) h
  apply BitVec.eq_of_getLsbD_eq
  intro i hi
  interval_cases i <;> simp [assemble, opOf, idxOf, kselOf, aOf, bOf, h14, h15]

end Sys2Proof
end

