-- ==== Sys2Proof/Laws/PerInstr.lean ====
section
/-! SUPPORT. Statements about every instruction, one lemma per constructor. -/

namespace Sys2Proof.Laws.TableRow

/-- The encoder keeps to the table: the bits that an instruction's row of spec/opcode_table.json fixes have the row's
values in its command word. -/
def Statement (i : Instr) : Prop := encode i &&& i.rowMask = i.rowMatch

/-- A word assembled from fields, cut to the bits of a mask, is the assembly of the cut fields. -/
theorem assemble_and (op : BitVec 8) (idx : BitVec 4) (ksel : BitVec 2) (a b : Byte) (m : Word32) :
    assemble op idx ksel a b &&& m =
      op.setWidth 32 &&& m ||| idx.setWidth 32 <<< 8 &&& m ||| ksel.setWidth 32 <<< 12 &&& m |||
        a.setWidth 32 <<< 16 &&& m ||| b.setWidth 32 <<< 24 &&& m := by
  ext i
  simp [assemble]
  grind

theorem nop : Statement .nop := rfl

theorem gfMul (a b : Byte) : Statement (.gfMul a b) := by
  have ha : ∀ a : Byte, a.setWidth 32 <<< 16 &&& (0x0000FFFF : Word32) = 0 := by decide +kernel
  have hb : ∀ b : Byte, b.setWidth 32 <<< 24 &&& (0x0000FFFF : Word32) = 0 := by decide +kernel
  simp only [Statement, encode, Instr.rowMask, Instr.rowMatch, assemble_and, ha, hb]
  rfl

theorem sbox (a : Byte) : Statement (.sbox a) := by
  have ha : ∀ a : Byte, a.setWidth 32 <<< 16 &&& (0xFF00FFFF : Word32) = 0 := by decide +kernel
  simp only [Statement, encode, Instr.rowMask, Instr.rowMatch, assemble_and, ha]
  rfl

theorem kxInit : Statement .kxInit := rfl

theorem kxNext : Statement .kxNext := rfl

theorem kxExpand : Statement .kxExpand := rfl

theorem subBytes : Statement .subBytes := rfl

theorem shiftRows : Statement .shiftRows := rfl

theorem mixColumns : Statement .mixColumns := rfl

/-- KSEL and IDX lie outside the mask of the three keyed rows. -/
theorem keyed_and (op : BitVec 8) (ks : KeySel) :
    assembleKeyed op ks &&& (0xFFFFC0FF : Word32) = assemble op 0 0 0 0 &&& (0xFFFFC0FF : Word32) := by
  have hi : ∀ idx : BitVec 4, idx.setWidth 32 <<< 8 &&& (0xFFFFC0FF : Word32) = 0 := by decide +kernel
  have hk : ∀ ksel : BitVec 2, ksel.setWidth 32 <<< 12 &&& (0xFFFFC0FF : Word32) = 0 := by decide +kernel
  simp only [assembleKeyed, assemble_and, hi, hk]

theorem addRoundKey (ks : KeySel) : Statement (.addRoundKey ks) :=
  (keyed_and 0x23 ks).trans rfl

theorem fullRound (ks : KeySel) : Statement (.fullRound ks) :=
  (keyed_and 0x24 ks).trans rfl

theorem finalRound (ks : KeySel) : Statement (.finalRound ks) :=
  (keyed_and 0x25 ks).trans rfl

theorem encrypt : Statement .encrypt := rfl

theorem encryptSched : Statement .encryptSched := rfl

end Sys2Proof.Laws.TableRow
end

