-- ==== Sys2Proof/Tests/Slice0.lean ====
section
/-! SUPPORT. Small tests of the model against words, vectors and tables of the spec, and a witness for the hypotheses of
each statement. Expected values come from spec/ (the place is named), never from the model. -/

namespace Sys2Proof.Tests

open Sys2Proof Sys2Proof.Machine

/-! Well-formedness: the one check, an index of 1..10 (30_encoding.md R53, R55). -/

theorem test_sched_index_zero_is_ill_formed : ¬ (Instr.addRoundKey (.sched 0)).WellFormed := by decide

theorem test_sched_index_eleven_is_ill_formed : ¬ (Instr.fullRound (.sched 11)).WellFormed := by decide

theorem test_sched_index_fifteen_is_ill_formed : ¬ (Instr.finalRound (.sched 15)).WellFormed := by decide

/-! Decoding, one word per constructor, written from the pattern `BBBBBBBB AAAAAAAA 00 KK IIII OOOOOOOO` and the opcode
map (30_encoding.md R49, R52). -/

theorem test_decode_nop : decode 0b00000000_00000000_00_00_0000_00000000 = .ok .nop := by decide

theorem test_decode_gfMul :
    decode 0b10000011_01010111_00_00_0000_00000001 = .ok (.gfMul 0x57 0x83) := by decide

theorem test_decode_sbox : decode 0b00000000_01010011_00_00_0000_00000010 = .ok (.sbox 0x53) := by decide

theorem test_decode_kxInit : decode 0b00000000_00000000_00_00_0000_00010000 = .ok .kxInit := by decide

theorem test_decode_kxNext : decode 0b00000000_00000000_00_00_0000_00010001 = .ok .kxNext := by decide

theorem test_decode_kxExpand : decode 0b00000000_00000000_00_00_0000_00010010 = .ok .kxExpand := by decide

theorem test_decode_subBytes : decode 0b00000000_00000000_00_00_0000_00100000 = .ok .subBytes := by decide

theorem test_decode_shiftRows : decode 0b00000000_00000000_00_00_0000_00100001 = .ok .shiftRows := by decide

theorem test_decode_mixColumns : decode 0b00000000_00000000_00_00_0000_00100010 = .ok .mixColumns := by decide

theorem test_decode_addRoundKey :
    decode 0b00000000_00000000_00_00_0000_00100011 = .ok (.addRoundKey .key) := by decide

theorem test_decode_fullRound :
    decode 0b00000000_00000000_00_01_0000_00100100 = .ok (.fullRound .rk) := by decide

theorem test_decode_finalRound :
    decode 0b00000000_00000000_00_10_1010_00100101 = .ok (.finalRound (.sched 10)) := by decide

theorem test_decode_encrypt : decode 0b00000000_00000000_00_00_0000_00110000 = .ok .encrypt := by decide

theorem test_decode_encryptSched :
    decode 0b00000000_00000000_00_00_0000_00110001 = .ok .encryptSched := by decide

/-- The refused words of 95_test_vectors.md V13. -/
theorem test_decode_refusals :
    decode 0x000000ff = .error .illegalOpcode ∧ decode 0x00010000 = .error .reservedField ∧
      decode 0x00003023 = .error .reservedField ∧ decode 0x00002023 = .error .reservedField ∧
      decode 0x00002b23 = .error .reservedField ∧ decode 0x00000123 = .error .reservedField ∧
      decode 0x83571001 = .error .reservedField ∧ decode 0x01530002 = .error .reservedField := by decide

/-! The states of the tests. -/

/-- The key of 95_test_vectors.md V2. -/
def fipsKey : Block := .ofHex 0x2b7e151628aed2a6abf7158809cf4f3c

/-- The plaintext of 95_test_vectors.md V2. -/
def fipsPlain : Block := .ofHex 0x3243f6a8885a308d313198a2e0370734

/-- Registers with every data register written and valid: the key and `st` in STATE, the expander just restarted, the
schedule of the key. -/
def fullRegs (st : Block) : Registers where
  key := fipsKey
  keyWv := 0b1111
  state := st
  stateWv := 0b1111
  rk := fipsKey
  rkValid := true
  kxPos := 0
  sched := keyExpand fipsKey
  schedValid := true
  result := 0
  resultValid := true
  fault := false
  fcode := .none
  finfo := 0
  busy := false

/-- A state with those registers and nothing pending. -/
def full (st : Block) : State := State.reset.setRegs (fullRegs st)

/-- The full state of the plaintext of V2. -/
def demo : State := full fipsPlain

/-- The full state after a fault. -/
def faulted : State := demo.afterFault .busError 0x06

/-- The full state with a command in progress. -/
def busyDemo : State := demo.setRegs { demo.regs with busy := true }

/-- The registers a command leaves. -/
def after (i : Instr) (s : State) : Option Registers :=
  match exec i s with
  | .next t => some t.regs
  | .fault _ => none
  | .refused _ => none

/-- The state a step leaves. -/
def stepped (s : State) : Option State :=
  match step s with
  | .next t => some t
  | .fault _ => none
  | .refused _ => none

/-- The state after one transaction. -/
def stepOn (s : State) (x : Transaction) : Option State := stepped (s.issue x)

/-! The commands, on the examples of their rules. -/

/-- 40_primitives.md R72. -/
theorem test_nop_changes_nothing : after .nop demo = some demo.regs := rfl

/-- 40_primitives.md R73: through the CMD write, from reset. -/
theorem test_gfMul_example :
    (stepped (State.reset.withFetchWord 32 0x83570001)).map (·.regs.result) = some 0xc1 := by decide

/-- 95_test_vectors.md V8: both operands with bit 7 set. -/
theorem test_gfMul_reduces : (after (.gfMul 0x80 0x80) demo).map (·.result) = some 0x9a := by decide

/-- 40_primitives.md R74. -/
theorem test_sbox_example : (after (.sbox 0x53) demo).map (·.result) = some 0xed := by decide

/-- 95_test_vectors.md V9: the last table entry. -/
theorem test_sbox_last : (after (.sbox 0xff) demo).map (·.result) = some 0x16 := by decide

/-- 41_key_expander.md R83: a restart from any position. -/
theorem test_kxInit_restarts :
    (after .kxInit (demo.setRegs (demo.regs.putRk fipsPlain 7))).map (fun r => (r.rk, r.kxPos)) = some (fipsKey, 0) := by
  decide +kernel

/-- 41_key_expander.md R84. -/
theorem test_kxNext_example :
    (after .kxNext demo).map (fun r => (r.rk, r.kxPos)) =
      some (.ofHex 0xa0fafe1788542cb123a339392a6c7605, 1) := by decide +kernel

/-- 95_test_vectors.md V10a: from round key 9, the last round constant. -/
theorem test_kxNext_tenth :
    (after .kxNext (demo.setRegs (demo.regs.putRk (.ofHex 0xac7766f319fadc2128d12941575c006e) 9))).map
      (fun r => (r.rk, r.kxPos)) = some (.ofHex 0xd014f9a8c9ee2589e13f0cc8b6630ca6, 10) := by decide +kernel

/-- 41_key_expander.md R85: the first and the last entry. -/
theorem test_kxExpand_example :
    (after .kxExpand demo).map (fun r => (r.sched[0], r.sched[9])) =
      some (.ofHex 0xa0fafe1788542cb123a339392a6c7605, .ofHex 0xd014f9a8c9ee2589e13f0cc8b6630ca6) := by
  decide +kernel

/-- 42_round_pipeline.md R92. -/
theorem test_subBytes_example :
    (after .subBytes (full (.ofHex 0x193de3bea0f4e22b9ac68d2ae9f84808))).map (·.state) =
      some (.ofHex 0xd42711aee0bf98f1b8b45de51e415230) := by decide +kernel

/-- 42_round_pipeline.md R93. -/
theorem test_shiftRows_example :
    (after .shiftRows (full (.ofHex 0x000102030405060708090a0b0c0d0e0f))).map (·.state) =
      some (.ofHex 0x00050a0f04090e03080d02070c01060b) := by decide +kernel

/-- 42_round_pipeline.md R94, 95_test_vectors.md V3. -/
theorem test_mixColumns_self_test :
    (after .mixColumns (full (.ofHex 0x632fafa2eb93c7209f92abcba0c0302b))).map (·.state) =
      some (.ofHex 0xba75f47a84a48d32e88d060e1b407d5d) := by decide +kernel

/-- 95_test_vectors.md V11: the four formulas on columns that tell them apart. -/
theorem test_mixColumns_columns :
    (after .mixColumns (full (.ofHex 0xdb135345f20a225c01010101c6c6c6c6))).map (·.state) =
      some (.ofHex 0x8e4da1bc9fdc589d01010101c6c6c6c6) := by decide +kernel

/-- 42_round_pipeline.md R95. -/
theorem test_addRoundKey_example :
    (after (.addRoundKey .key) demo).map (·.state) = some (.ofHex 0x193de3bea0f4e22b9ac68d2ae9f84808) := by
  decide +kernel

/-- 42_round_pipeline.md R96, with round key 1 from the schedule. -/
theorem test_fullRound_example :
    (after (.fullRound (.sched 1)) (full (.ofHex 0x193de3bea0f4e22b9ac68d2ae9f84808))).map (·.state) =
      some (.ofHex 0xa49c7ff2689f352b6b5bea43026a5049) := by decide +kernel

/-- 42_round_pipeline.md R97. -/
theorem test_finalRound_example :
    (after (.finalRound (.sched 10)) (full (.ofHex 0xeb40f21e592e38848ba113e71bc342d2))).map (·.state) =
      some (.ofHex 0x3925841d02dc09fbdc118597196a0b32) := by decide +kernel

/-- 43_encryption_engine.md R99, 95_test_vectors.md V2 and V10a. -/
theorem test_encrypt_example :
    (after .encrypt demo).map (fun r => (r.state, r.rk, r.kxPos)) =
      some (.ofHex 0x3925841d02dc09fbdc118597196a0b32, .ofHex 0xd014f9a8c9ee2589e13f0cc8b6630ca6, 10) := by
  decide +kernel

/-- 95_test_vectors.md V1: the other known answer, as the pure function. -/
theorem test_encryptBlock_known_answer :
    encryptBlock (.ofHex 0x54776f204f6e65204e696e652054776f) (.ofHex 0x5468617473206d79204b756e67204675) =
      .ofHex 0x29c3505f571420f6402299b31a02d73a := by decide +kernel

/-- 43_encryption_engine.md R100; the expander is left alone. -/
theorem test_encryptSched_example :
    (after .encryptSched demo).map (fun r => (r.state, r.rk, r.kxPos)) =
      some (.ofHex 0x3925841d02dc09fbdc118597196a0b32, fipsKey, 0) := by decide +kernel

/-! Faults, reads and writes. -/

/-- 95_test_vectors.md V13: SUB_BYTES from reset. -/
theorem test_unwritten_operand_from_reset :
    (stepOn State.reset (wr .cmd 0x20)).map (fun t => (t.regs.status, t.regs.finfo)) = some (0x7, 0x20) := by decide

/-- 95_test_vectors.md V13: a read of STATE0 before it is written. -/
theorem test_unwritten_read_from_reset :
    (stepOn State.reset (rd (.state 0))).map (fun t => (t.regs.status, t.regs.finfo)) = some (0xf, 0x20) := by decide

/-- 95_test_vectors.md V13: a write of a read-only word. -/
theorem test_write_read_only :
    (stepOn State.reset (wr (.rk 0) 0)).map (fun t => (t.regs.status, t.regs.finfo)) = some (0xd, 0x30) := by decide

/-- 95_test_vectors.md V13: a 1-byte read of STATUS. -/
theorem test_byte_read :
    (stepOn State.reset (.read 0x04 1)).map (fun t => (t.regs.status, t.regs.finfo)) = some (0xd, 0x04) := by decide

/-- 20_memory.md R32 and R37: a KEY word lands big-endian, and the derived key state becomes stale. -/
theorem test_key_write :
    (stepOn demo (wr (.key 1) 0x01020304)).map
        (fun t => (t.regs.key.col 1, t.regs.rkValid, t.regs.schedValid, t.regs.stateWv)) =
      some (⟨0x01, 0x02, 0x03, 0x04⟩, false, false, 0b1111) := by decide

/-- 95_test_vectors.md P3: the last word of the schedule. -/
theorem test_read_last_schedule_word :
    (stepOn demo (.read 0xDC 4)).map (·.response) = some (some 0xb6630ca6) := by decide +kernel

/-- 60_exceptions.md R109, 95_test_vectors.md P5: a write while FAULT = 1 is ignored. -/
theorem test_faulted_write_ignored :
    (stepOn faulted (wr (.state 0) 0xdeadbeef)).map (·.regs.state) = some fipsPlain := by decide +kernel

/-- 70_reset_and_hazards.md R120, R121: reset clears FAULT and keeps the ghost bit. -/
theorem test_reset_keeps_ghost_bit :
    (stepOn faulted .reset).map (fun t => (t.regs.status, t.everFaulted)) = some (0, true) := by decide

/-! Witnesses: for each statement with hypotheses, states and operands that meet them. -/

theorem ready_reset : State.reset.Ready := ⟨rfl, rfl⟩

theorem ready_demo : demo.Ready := ⟨rfl, rfl⟩

theorem inv_demo : demo.Inv where
  regs :=
    { pos_le := by decide
      pos_of_not_rkValid := by decide
      rk_of_rkValid := fun _ => ⟨rfl, rfl⟩
      sched_of_schedValid := fun _ => ⟨rfl, by decide +kernel⟩
      no_record_of_no_fault := fun _ => ⟨rfl, rfl⟩
      code_of_fault := by decide
      not_busy := rfl }
  ever_of_fault := by decide

theorem witness_DecodeOfEncode :
    (Instr.addRoundKey (.sched 1)).WellFormed ∧ (Instr.finalRound (.sched 10)).WellFormed ∧
      (Instr.gfMul 0xff 0xff).WellFormed := by decide

theorem witness_EncodeOfDecode : decode 0xFFFF0001 = .ok (.gfMul 0xff 0xff) := by decide

theorem witness_IllegalOpcodesRaise :
    State.reset.Ready ∧ IllegalOpcode (opOf 0x03) ∧ IllegalOpcode (opOf 0x1F) ∧ IllegalOpcode (opOf 0x26) ∧
      IllegalOpcode (opOf 0x32) ∧ IllegalOpcode (opOf 0xFF) ∧ ¬ IllegalOpcode (opOf 0x31) :=
  ⟨ready_reset, by decide⟩

theorem witness_ReservedFieldsRaise :
    State.reset.Ready ∧
      ∀ v ∈ ([0x4000, 0x10000, 0x01530002, 0x00001001, 0x3023, 0x2023, 0x2b23, 0x0123, 0x1123] : List Word32),
        opOf v ∈ assignedOpcodes ∧ ReservedField v :=
  ⟨ready_reset, List.forall_iff_forall_mem.1
    ⟨by decide, by decide, by decide, by decide, by decide, by decide, by decide, by decide, by decide⟩⟩

theorem witness_TableRowsAreDisjoint :
    decode 0x2a25 = .ok (.finalRound (.sched 10)) ∧
      0x2a25 &&& (Instr.finalRound .key).rowMask = (Instr.finalRound .key).rowMatch := by decide

theorem witness_StepRunsDecodedCommand :
    (demo.issue (.write 0x00 4 0x11)).Ready ∧
      (demo.issue (.write 0x00 4 0x11)).pending = .write 0x00 4 0x11 :: [] ∧ decode 0x11 = .ok .kxNext ∧
      decodeTableWord 32 0x11 = some .kxNext :=
  ⟨ready_demo, rfl, by decide, by decide⟩

theorem witness_TransactionsAreTakenInOrder :
    demo.pending = [] ∧ (demo.issue .reset).pending = .reset :: [] := ⟨rfl, rfl⟩

theorem witness_StepKeepsInvariants : ∃ t, demo.Inv ∧ step demo = .next t := ⟨_, inv_demo, rfl⟩

theorem witness_EverFaultedIsSticky :
    (∃ t, step (State.reset.issue (.write 0x00 4 0x20)) = .next t ∧ State.reset.regs.fault = false ∧
      t.regs.fault = true) ∧
      ∃ t, step (faulted.issue .reset) = .next t ∧ faulted.everFaulted = true :=
  ⟨⟨_, rfl, rfl, rfl⟩, ⟨_, rfl, rfl⟩⟩

/-- Two states with different KEY contents, no word of KEY being valid. -/
theorem witness_UnreadableContentsAreUnobservable :
    ∃ s t : State, s.SameReadable t ∧ s.regs.key ≠ t.regs.key := by
  refine ⟨demo.setRegs { demo.regs with keyWv := 0 }, demo.setRegs { demo.regs with keyWv := 0, key := fipsPlain },
    ⟨?_, rfl, rfl, rfl, rfl⟩, by decide⟩
  exact
    { key := fun c h => absurd h (by revert c; decide)
      state := fun _ _ => rfl, rk := fun _ => rfl, sched := fun _ => rfl, result := fun _ => rfl
      keyWv := rfl, stateWv := rfl, rkValid := rfl, kxPos := rfl, schedValid := rfl, resultValid := rfl
      fault := rfl, fcode := rfl, finfo := rfl, busy := rfl }

theorem witness_FaultEntryRecordsOnce : demo.regs.fault = false ∧ faulted.regs.fault = true := ⟨rfl, rfl⟩

theorem witness_FaultsArePrecise :
    ∃ t, step (demo.issue (.read 0x06 4)) = .next t ∧ demo.regs.fault = false ∧ t.regs.fault = true :=
  ⟨_, rfl, rfl, rfl⟩

/-- A read that returns a value, and one of another size. -/
theorem witness_FaultedCoreIsQuiescent :
    faulted.regs.fault = true ∧ faulted.regs.busy = false ∧ ReadsAs faulted.regs 0x04 faulted.regs.status ∧
      ReadsAs faulted.regs (BitVec.ofNat 8 (0x40 + 16 * 9 + 4 * 3)) (faulted.regs.sched[9].col 3).pack ∧
      (2 : Nat) ≠ 4 :=
  ⟨rfl, rfl, .status, .sched 9 3 rfl, by decide⟩

theorem witness_OnlyResetLeavesTheFault :
    (∃ t, step (faulted.issue (.read 0x04 4)) = .next t ∧ faulted.regs.fault = true) ∧
      ∃ t, step (faulted.issue .reset) = .next t ∧ faulted.regs.fault = true := ⟨⟨_, rfl, rfl⟩, ⟨_, rfl, rfl⟩⟩

theorem witness_ResetClearsControlState : (faulted.issue .reset).pending = .reset :: [] := rfl

/-- The readable and the unreadable side of the clauses of LegalReads. -/
theorem witness_LegalReads :
    demo.Ready ∧ State.reset.Ready ∧ demo.regs.resultValid = true ∧ State.reset.regs.resultValid = false ∧
      demo.regs.keyWv.getLsbD 3 = true ∧ State.reset.regs.keyWv.getLsbD 3 = false ∧
      (0xDF : BitVec 8).toNat % 4 ≠ 0 ∧ 0xE0 ≤ (0xE0 : BitVec 8).toNat :=
  ⟨ready_demo, ready_reset, rfl, rfl, by decide, by decide, by decide, by decide⟩

theorem witness_LegalWrites :
    demo.Ready ∧ (0x04 : BitVec 8).toNat ∈ [0x04, 0x08, 0x0C] ∧ 0x30 ≤ (0x30 : BitVec 8).toNat ∧
      (0x11 : BitVec 8).toNat % 4 ≠ 0 := ⟨ready_demo, by decide⟩

theorem witness_IllegalAccessesRaiseBusError :
    demo.Ready ∧ (0 : Nat) ≠ 4 ∧ (0x01 : BitVec 8).toNat % 4 ≠ 0 ∧ 0xE0 ≤ (0xFC : BitVec 8).toNat :=
  ⟨ready_demo, by decide⟩

theorem witness_BusyAccessesRaise :
    busyDemo.regs.fault = false ∧ busyDemo.regs.busy = true ∧ (0x00 : BitVec 8) ≠ 0x04 ∧ (1 : Nat) ≠ 4 :=
  ⟨rfl, rfl, by decide⟩

theorem witness_StatusFields (code : FaultCode) : ∃ r : Registers, r.fcode = code :=
  ⟨{ demo.regs with fcode := code }, rfl⟩

theorem witness_RepeatedAccessesAreIdempotent :
    demo.Ready ∧ demo.regs.read 0x04 4 = .ok demo.regs.status := ⟨ready_demo, rfl⟩

theorem witness_WindowDecoding : (0xFF : Nat) < 0x100 ∧ (0x2FF : Nat) < 0x300 ∧ (0x300 : Nat) + 0x100 ≤ 0x400 := by
  decide

theorem witness_GinvIsTheInverse : (0x53 : Byte) ≠ 0 ∧ gmul 0x53 0xca = 1 := by decide

theorem witness_RoundConstants : (2 : Nat) ≤ 10 ∧ (10 : Nat) ≤ 10 := by decide

theorem witness_KxInitCompletes : demo.regs.keyWv = 0b1111#4 := rfl

theorem witness_KxNextCompletes :
    demo.regs.rkValid = true ∧ demo.regs.kxPos.toNat < 10 ∧ (demo.regs.putRk fipsKey 9).kxPos.toNat < 10 := by decide

theorem witness_KxExpandCompletes : demo.regs.keyWv = 0b1111#4 := rfl

theorem witness_StageCommandsComplete : demo.regs.stateWv = 0b1111#4 := rfl

/-- KeyedCommandsComplete and RoundsAreStageSequences: the three sources, the schedule at both ends of its range. -/
theorem witness_KeyedCommandsComplete :
    demo.regs.stateWv = 0b1111#4 ∧ Supplies .key demo.regs fipsKey ∧ Supplies .rk demo.regs fipsKey ∧
      Supplies (.sched 1) demo.regs demo.regs.sched[0] ∧ Supplies (.sched 10) demo.regs demo.regs.sched[9] :=
  ⟨rfl, ⟨rfl, rfl⟩, ⟨rfl, rfl⟩, ⟨rfl, 0, rfl, rfl⟩, ⟨rfl, 9, rfl, rfl⟩⟩

theorem witness_RoundsAreStageSequences : demo.regs.stateWv = 0b1111#4 ∧ Supplies .rk demo.regs fipsKey :=
  ⟨rfl, rfl, rfl⟩

theorem witness_EncryptCompletes : demo.regs.stateWv = 0b1111#4 ∧ demo.regs.keyWv = 0b1111#4 := ⟨rfl, rfl⟩

theorem witness_EncryptSchedCompletes :
    demo.regs.stateWv = 0b1111#4 ∧ demo.regs.keyWv = 0b1111#4 ∧ demo.regs.schedValid = true := ⟨rfl, rfl, rfl⟩

theorem witness_UnwrittenOperandsRaise :
    State.reset.regs.fault = false ∧ State.reset.regs.keyWv ≠ 0b1111#4 ∧ State.reset.regs.rkValid = false ∧
      State.reset.regs.stateWv ≠ 0b1111#4 ∧ KeySel.wellFormed (.sched 10) = true := by decide

theorem witness_MissingScheduleRaises :
    ∃ s : State, s.regs.fault = false ∧ s.regs.schedValid = false ∧ s.regs.stateWv = 0b1111#4 ∧
      s.regs.keyWv = 0b1111#4 :=
  ⟨demo.setRegs { demo.regs with schedValid := false }, rfl, rfl, rfl, rfl⟩

theorem witness_EleventhKxNextRaises :
    (∃ s : State, s.regs.fault = false ∧ s.regs.rkValid = true ∧ 10 ≤ s.regs.kxPos.toNat) ∧
      ∃ t, exec .encrypt demo = .next t ∧ t.regs.fault = false :=
  ⟨⟨demo.setRegs (demo.regs.putRk fipsKey 10), rfl, rfl, by decide⟩, ⟨_, rfl, rfl⟩⟩

theorem witness_CommandFrames :
    ∃ t, exec .kxNext demo = .next t ∧ Writes.state .kxNext = false ∧ Writes.sched .kxNext = false ∧
      Writes.result .kxNext = false ∧ Writes.rk .subBytes = false := ⟨_, rfl, rfl, rfl, rfl, rfl⟩

theorem witness_IncrementalEqualsBatch :
    demo.regs.Inv ∧ demo.regs.keyWv = 0b1111#4 ∧ demo.regs.schedValid = true := ⟨inv_demo.regs, rfl, rfl⟩

theorem witness_EncryptStepsEqualEncrypt :
    demo.Ready ∧ demo.regs.keyWv = 0b1111#4 ∧ demo.regs.stateWv = 0b1111#4 := ⟨ready_demo, rfl, rfl⟩

theorem witness_EncryptSchedAgreesWithEncrypt :
    demo.regs.Inv ∧ demo.regs.schedValid = true ∧ demo.regs.stateWv = 0b1111#4 := ⟨inv_demo.regs, rfl, rfl⟩

theorem witness_HostBulkEncryptsEachBlock : State.reset.Ready := ready_reset

/-- 95_test_vectors.md V6 and V7: a short string, a long one, and the number of Blocks of 33 bytes. -/
theorem witness_HostBlockPreparation :
    (4 : Nat) < ([1, 2, 3, 4, 5] : List Byte).length ∧ ([1, 2, 3, 4, 5] : List Byte).length ≤ 5 ∧
      (15 : Nat) < (List.replicate 20 (0 : Byte)).length ∧ 2 < (hostBlocks (List.replicate 33 0)).length := by decide

end Sys2Proof.Tests
end

/-! The S-box's two implementations (00_scope.md R7; 40_primitives.md R70, R71). The table is data, so that it is the
construction is checked entry by entry, once; every other fact about the S-box follows from that. -/

namespace Sys2Proof.Machine

/-- Each of the 256 entries of R71's table is the affine transform of its index's inverse. -/
theorem sboxRom_eq_sboxComb : ∀ x : Byte, sboxRom x = sboxComb x := by decide +kernel

/-- SBOX_IMPL is not observable (00_scope.md R7). -/
theorem sboxOf_eq_affine_ginv (impl : SboxImpl) (x : Byte) : sboxOf impl x = affine (ginv x) := by
  cases impl with
  | rom => exact sboxRom_eq_sboxComb x
  | combinational => rfl

theorem sbox_eq_affine_ginv (x : Byte) : sbox x = affine (ginv x) := sboxOf_eq_affine_ginv .rom x

/-- Settles O33, by the table's check and the two cases of SBOX_IMPL. -/
theorem sboxImplementationsAgree : Obligations.SboxImplementationsAgree := by
  intro impl x
  have h : sboxOf impl x = affine (ginv x) := sboxOf_eq_affine_ginv impl x
  exact ⟨h, (sbox_eq_affine_ginv x).trans h.symm⟩

end Sys2Proof.Machine

/-! What every step keeps of the registers (10_state.md R27), and what a command leaves unchanged (R13): each register
operation keeps the invariants and the frame, hence so does each command, each transaction and each step. -/

namespace Sys2Proof.Machine

theorem Registers.keyFull_iff {r : Registers} : r.keyFull = true ↔ r.keyWv = 0b1111#4 := beq_iff_eq

/-! A fault that is raised has a code other than NONE (60_exceptions.md R105). -/

theorem require_ne_error_none {α : Type} {cond : Bool} {code : FaultCode} {k : Except FaultCode α}
    (hcode : code ≠ .none) (hk : k ≠ .error .none) : require cond code k ≠ .error .none := by
  cases cond
  · simpa using hcode
  · exact hk

theorem withKey_ne_error_none {α : Type} {r : Registers} {k : Block → Except FaultCode α}
    (hk : ∀ b, k b ≠ .error .none) : withKey r k ≠ .error .none := require_ne_error_none nofun (hk _)

theorem withState_ne_error_none {α : Type} {r : Registers} {k : Block → Except FaultCode α}
    (hk : ∀ b, k b ≠ .error .none) : withState r k ≠ .error .none := require_ne_error_none nofun (hk _)

theorem withRk_ne_error_none {α : Type} {r : Registers} {k : Block → Except FaultCode α}
    (hk : ∀ b, k b ≠ .error .none) : withRk r k ≠ .error .none := require_ne_error_none nofun (hk _)

theorem withSched_ne_error_none {α : Type} {r : Registers} {k : Vector Block 10 → Except FaultCode α}
    (hk : ∀ ks, k ks ≠ .error .none) : withSched r k ≠ .error .none := require_ne_error_none nofun (hk _)

theorem withKeySrc_ne_error_none {α : Type} {ks : KeySel} {r : Registers} {k : Block → Except FaultCode α}
    (hk : ∀ b, k b ≠ .error .none) : withKeySrc ks r k ≠ .error .none := by
  cases ks with
  | key => exact withKey_ne_error_none hk
  | rk => exact withRk_ne_error_none hk
  | sched idx =>
    simp only [withKeySrc]
    split
    · nofun
    · exact withSched_ne_error_none fun _ => hk _

theorem stageResult_ne_error_none (f : Block → Block) (r : Registers) : stageResult f r ≠ .error .none :=
  withState_ne_error_none nofun

theorem keyedResult_ne_error_none (f : Block → Block → Block) (ks : KeySel) (r : Registers) :
    keyedResult f ks r ≠ .error .none :=
  require_ne_error_none nofun <| withState_ne_error_none fun _ => withKeySrc_ne_error_none nofun

/-- A command that faults raises one of the codes 1..8. -/
theorem commandResult_ne_error_none (i : Instr) (r : Registers) : commandResult i r ≠ .error .none := by
  cases i <;> dsimp only [commandResult]
  case nop | gfMul | sbox => nofun
  case kxInit | kxExpand => exact withKey_ne_error_none fun _ => nofun
  case kxNext => exact withRk_ne_error_none fun _ => require_ne_error_none nofun nofun
  case subBytes | shiftRows | mixColumns => exact stageResult_ne_error_none _ r
  case addRoundKey ks | fullRound ks | finalRound ks => exact keyedResult_ne_error_none _ ks r
  case encrypt => exact withState_ne_error_none fun _ => withKey_ne_error_none fun _ => nofun
  case encryptSched =>
    exact withState_ne_error_none fun _ => withKey_ne_error_none fun _ => withSched_ne_error_none fun _ => nofun

theorem access_ne_error_none {α : Type} {r : Registers} {isRead : Bool} {off : BitVec 8} {size : Nat}
    {k : Reg → Except FaultCode α} (hk : ∀ reg, k reg ≠ .error .none) : access r isRead off size k ≠ .error .none := by
  refine require_ne_error_none nofun (require_ne_error_none nofun ?_)
  split
  · nofun
  · exact hk _

theorem readReg_ne_error_none (r : Registers) (reg : Reg) : r.readReg reg ≠ .error .none := by
  cases reg with
  | cmd | status | finfo => nofun
  | result | key _ | state _ | rk _ | sched _ _ => exact require_ne_error_none nofun nofun

/-- A read that faults raises one of the codes 1..8. -/
theorem read_ne_error_none (r : Registers) (off : BitVec 8) (size : Nat) : r.read off size ≠ .error .none :=
  access_ne_error_none (readReg_ne_error_none r)

theorem rejectCode_ne_none (e : Reject) : rejectCode e ≠ .none := by
  cases e <;> nofun

/-! The register operations. -/

/-- The key that ENCRYPT leaves in RK is round key 10 (43_encryption_engine.md R99). -/
theorem encryptFresh_snd (p k : Block) : (encryptFresh p k).2 = keyIter k 10 := rfl

theorem Registers.inv_reset (n : Nat) : (Registers.reset n).Inv where
  pos_le := by simp [Registers.reset]
  pos_of_not_rkValid _ := rfl
  rk_of_rkValid := nofun
  sched_of_schedValid := nofun
  no_record_of_no_fault _ := ⟨rfl, rfl⟩
  code_of_fault := nofun
  not_busy := rfl

/-- A KEY write drops what depends on KEY: nothing is left to be said of RK and SCHED (20_memory.md R37). -/
theorem Registers.Inv.writeKey {r : Registers} (h : r.Inv) (c : Fin 4) (v : Word32) : (r.writeKey c v).Inv :=
  { h with
    pos_le := by simp
    pos_of_not_rkValid := fun _ => rfl
    rk_of_rkValid := nofun
    sched_of_schedValid := nofun }

theorem Registers.Inv.writeState {r : Registers} (h : r.Inv) (c : Fin 4) (v : Word32) : (r.writeState c v).Inv :=
  { h with }

theorem Registers.Inv.putState {r : Registers} (h : r.Inv) (b : Block) : (r.putState b).Inv := { h with }

theorem Registers.Inv.putResult {r : Registers} (h : r.Inv) (b : Byte) : (r.putResult b).Inv := { h with }

theorem Registers.Inv.putRk {r : Registers} (h : r.Inv) {b : Block} {p : BitVec 4} (hkey : r.keyWv = 0b1111#4)
    (hp : p.toNat ≤ 10) (hb : b = keyIter r.key p.toNat) : (r.putRk b p).Inv :=
  { h with
    pos_le := hp
    pos_of_not_rkValid := nofun
    rk_of_rkValid := fun _ => ⟨hkey, hb⟩ }

theorem Registers.Inv.putSched {r : Registers} (h : r.Inv) (hkey : r.keyWv = 0b1111#4) :
    (r.putSched (keyExpand r.key)).Inv :=
  { h with sched_of_schedValid := fun _ => ⟨hkey, by simp [keyExpand]⟩ }

theorem Registers.Inv.recordFault {r : Registers} (h : r.Inv) {code : FaultCode} (hcode : code ≠ .none)
    (info : Word32) : (r.recordFault code info).Inv :=
  { h with
    no_record_of_no_fault := nofun
    code_of_fault := fun _ => hcode }

/-- KX_NEXT's step of the expander: the next round key of KEY, at the next position (41_key_expander.md R84). -/
theorem Registers.Inv.putRk_keyNext {r : Registers} (h : r.Inv) (hrk : r.rkValid = true) (hpos : r.kxPos < 10) :
    (r.putRk (keyNext r.rk (r.kxPos + 1).toNat) (r.kxPos + 1)).Inv := by
  obtain ⟨hkey, hiter⟩ := h.rk_of_rkValid hrk
  have hsucc : (r.kxPos + 1).toNat = r.kxPos.toNat + 1 := by bv_omega
  refine h.putRk hkey (by bv_omega) ?_
  rw [hsucc, hiter]
  rfl

/-- What a command writes meets the invariants. -/
theorem commandResult_inv {i : Instr} {r q : Registers} (h : r.Inv) (hq : commandResult i r = .ok q) : q.Inv := by
  rcases commandResult_eq_ok hq with rfl | ⟨b, rfl⟩ | ⟨hkey, rfl⟩ | ⟨hrk, hpos, rfl⟩ | ⟨hkey, rfl⟩ | ⟨-, b, rfl⟩ |
    ⟨-, hkey, rfl⟩
  · exact h
  · exact h.putResult b
  · exact h.putRk (Registers.keyFull_iff.mp hkey) (by decide) rfl
  · exact h.putRk_keyNext hrk hpos
  · exact h.putSched (Registers.keyFull_iff.mp hkey)
  · exact h.putState b
  · exact (h.putState _).putRk (Registers.keyFull_iff.mp hkey) (by decide) (encryptFresh_snd _ _)

/-! What a command leaves unchanged (the "written by" column of 10_state.md R13). -/

/-- The registers `q` are `r` but for those that the command `i` writes. -/
structure CommandFrame (i : Instr) (r q : Registers) : Prop where
  key : q.key = r.key
  keyWv : q.keyWv = r.keyWv
  stateWv : q.stateWv = r.stateWv
  busy : q.busy = r.busy
  state : Writes.state i = false → q.state = r.state
  rk : Writes.rk i = false → q.rk = r.rk ∧ q.rkValid = r.rkValid ∧ q.kxPos = r.kxPos
  sched : Writes.sched i = false → q.sched = r.sched ∧ q.schedValid = r.schedValid
  result : Writes.result i = false → q.result = r.result ∧ q.resultValid = r.resultValid
  record : q.fault = r.fault ∧ q.fcode = r.fcode ∧ q.finfo = r.finfo

theorem CommandFrame.refl (i : Instr) (r : Registers) : CommandFrame i r r := by
  constructor <;> simp

theorem CommandFrame.putState {i : Instr} {r q : Registers} (h : CommandFrame i r q) (hw : Writes.state i = true)
    (b : Block) : CommandFrame i r (q.putState b) :=
  { h with state := by simp [hw] }

theorem CommandFrame.putRk {i : Instr} {r q : Registers} (h : CommandFrame i r q) (hw : Writes.rk i = true)
    (b : Block) (p : BitVec 4) : CommandFrame i r (q.putRk b p) :=
  { h with rk := by simp [hw] }

theorem CommandFrame.putSched {i : Instr} {r q : Registers} (h : CommandFrame i r q) (hw : Writes.sched i = true)
    (ks : Vector Block 10) : CommandFrame i r (q.putSched ks) :=
  { h with sched := by simp [hw] }

theorem CommandFrame.putResult {i : Instr} {r q : Registers} (h : CommandFrame i r q) (hw : Writes.result i = true)
    (b : Byte) : CommandFrame i r (q.putResult b) :=
  { h with result := by simp [hw] }

/-- A command that completes writes the registers of its row only. -/
theorem commandResult_frame {i : Instr} {r q : Registers} (h : commandResult i r = .ok q) : CommandFrame i r q := by
  have hr := CommandFrame.refl i r
  cases i <;> dsimp only [commandResult] at h
  case nop => exact Except.ok.inj h ▸ hr
  case gfMul a b => exact Except.ok.inj h ▸ hr.putResult rfl _
  case sbox a => exact Except.ok.inj h ▸ hr.putResult rfl _
  case kxInit =>
    obtain ⟨-, h⟩ := withKey_eq_ok.mp h
    exact Except.ok.inj h ▸ hr.putRk rfl _ _
  case kxNext =>
    obtain ⟨-, h⟩ := withRk_eq_ok.mp h
    obtain ⟨-, h⟩ := require_eq_ok.mp h
    exact Except.ok.inj h ▸ hr.putRk rfl _ _
  case kxExpand =>
    obtain ⟨-, h⟩ := withKey_eq_ok.mp h
    exact Except.ok.inj h ▸ hr.putSched rfl _
  case subBytes | shiftRows | mixColumns =>
    obtain ⟨-, rfl⟩ := stageResult_eq_ok h
    exact hr.putState rfl _
  case addRoundKey ks | fullRound ks | finalRound ks =>
    obtain ⟨-, k, rfl⟩ := keyedResult_eq_ok h
    exact hr.putState rfl _
  case encrypt =>
    obtain ⟨-, h⟩ := withState_eq_ok.mp h
    obtain ⟨-, h⟩ := withKey_eq_ok.mp h
    exact Except.ok.inj h ▸ (hr.putState rfl _).putRk rfl _ _
  case encryptSched =>
    obtain ⟨-, h⟩ := withState_eq_ok.mp h
    obtain ⟨-, h⟩ := withKey_eq_ok.mp h
    obtain ⟨-, h⟩ := withSched_eq_ok.mp h
    exact Except.ok.inj h ▸ hr.putState rfl _

/-- A raise in the words of 60_exceptions.md R106 and R109: the first fault is recorded, a later one changes nothing. -/
theorem State.raise_eq (s : State) (code : FaultCode) (info : Word32) :
    (s.regs.fault = true ∧ s.raise code info = s) ∨
      (s.regs.fault = false ∧ s.raise code info = s.afterFault code info) := by
  cases hf : s.regs.fault
  · exact .inr ⟨rfl, s.raise_of_not_fault code info hf⟩
  · exact .inl ⟨rfl, s.raise_of_fault code info hf⟩

/-- Settles O54: a command that completes stays in its frame, and one that faults changes the fault record only. -/
theorem commandFrames : Obligations.CommandFrames := by
  intro i s t h
  rcases exec_eq_next h with ⟨q, hq, rfl⟩ | ⟨code, -, rfl⟩
  · obtain ⟨hkey, hkeyWv, hstateWv, hbusy, hstate, hrk, hsched, hresult, hfault, hfcode, hfinfo⟩ := commandResult_frame hq
    exact ⟨rfl, rfl, rfl, hkey, hkeyWv, hstateWv, hbusy, hstate, hrk, hsched, hresult,
      .inl ⟨hfault, hfcode, hfinfo, rfl⟩⟩
  · rcases s.raise_eq code (encode i) with ⟨-, heq⟩ | ⟨hf, heq⟩ <;> rw [heq]
    · simp
    · simp [State.afterFault, hf]

/-! States, transactions and the step. -/

/-- New registers that meet the invariants and hold the same FAULT. -/
theorem State.Inv.setRegs {s : State} (h : s.Inv) {r : Registers} (hr : r.Inv) (hf : r.fault = s.regs.fault) :
    (s.setRegs r).Inv := ⟨hr, fun ht => h.ever_of_fault (hf ▸ ht)⟩

theorem State.Inv.raise {s : State} (h : s.Inv) {code : FaultCode} (hcode : code ≠ .none) (info : Word32) :
    (s.raise code info).Inv := by
  rcases s.raise_eq code info with ⟨-, heq⟩ | ⟨-, heq⟩ <;> rw [heq]
  · exact h
  · exact ⟨h.regs.recordFault hcode info, fun _ => rfl⟩

theorem State.Inv.respond {s : State} (h : s.Inv) (v : Word32) : (s.respond v).Inv := ⟨h.regs, h.ever_of_fault⟩

theorem State.Inv.respondFree {s : State} (h : s.Inv) : s.respondFree.Inv := ⟨h.regs, h.ever_of_fault⟩

theorem State.Inv.take {s : State} (h : s.Inv) (rest : List Transaction) : (s.take rest).Inv :=
  ⟨h.regs, h.ever_of_fault⟩

theorem State.inv_assertReset (s : State) : s.assertReset.Inv := ⟨Registers.inv_reset _, nofun⟩

theorem exec_inv {i : Instr} {s t : State} (h : s.Inv) (ht : exec i s = .next t) : t.Inv := by
  rcases exec_eq_next ht with ⟨q, hq, rfl⟩ | ⟨code, hcode, rfl⟩
  · obtain ⟨hfault, -, -⟩ := (commandResult_frame hq).record
    exact h.setRegs (commandResult_inv h.regs hq) hfault
  · exact h.raise (by rintro rfl; exact commandResult_ne_error_none _ _ hcode) _

theorem command_inv {v : Word32} {s t : State} (h : s.Inv) (ht : command v s = .next t) : t.Inv := by
  rcases command_eq_next ht with ⟨i, -, hi⟩ | ⟨e, -, rfl⟩
  · exact exec_inv h hi
  · exact h.raise (rejectCode_ne_none e) v

theorem hostRead_inv {off : BitVec 8} {size : Nat} {s t : State} (h : s.Inv) (ht : hostRead off size s = .next t) :
    t.Inv := by
  rcases hostRead_eq_next ht with ⟨v, -, rfl⟩ | ⟨code, hcode, rfl⟩
  · exact h.respond v
  · exact (h.raise (by rintro rfl; exact read_ne_error_none _ _ _ hcode) _).respondFree

theorem hostWrite_inv {off : BitVec 8} {size : Nat} {v : Word32} {s t : State} (h : s.Inv)
    (ht : hostWrite off size v s = .next t) : t.Inv := by
  rcases hostWrite_eq_next ht with ⟨-, rfl⟩ | ⟨-, hcmd | ⟨c, rfl⟩ | ⟨c, rfl⟩ | ⟨code, hcode, rfl⟩⟩
  · exact h
  · exact command_inv h hcmd
  · exact h.setRegs (h.regs.writeKey c v) rfl
  · exact h.setRegs (h.regs.writeState c v) rfl
  · exact h.raise hcode _

theorem transact_inv {x : Transaction} {s t : State} (h : s.Inv) (ht : transact x s = .next t) : t.Inv := by
  cases x with
  | read off size => exact hostRead_inv h ht
  | write off size v => exact hostWrite_inv h ht
  | reset => exact Host.Outcome.next.inj ht ▸ s.inv_assertReset

/-- Settles O11, by the cases of the queue: an idle step changes nothing, and every transaction keeps the invariants. -/
theorem stepKeepsInvariants : Obligations.StepKeepsInvariants := by
  intro s t h ht
  cases hp : s.pending with
  | nil =>
    rw [step_of_idle hp] at ht
    exact Host.Outcome.next.inj ht ▸ h
  | cons x rest =>
    rw [step_of_pending hp] at ht
    exact transact_inv (h.take rest) ht

/-- Settles O12: reset number 0 leaves registers that meet the invariants, and FAULT = 0. -/
theorem resetMeetsInvariants : Obligations.ResetMeetsInvariants := ⟨Registers.inv_reset 0, nofun⟩

end Sys2Proof.Machine

/-! The fields of STATUS (10_state.md R23). -/

namespace Sys2Proof.Machine

@[simp] theorem getElem_flag32 (b : Bool) (i : Nat) (hi : i < 32) : (flag32 b)[i] = (decide (i = 0) && b) := by
  cases i <;> simp [flag32]

theorem status_fault (r : Registers) : r.status.getLsbD 0 = r.fault := by simp [Registers.status]

theorem status_fcode (r : Registers) : r.status.extractLsb' 1 4 = r.fcode.bits := by
  ext i hi
  interval_cases i <;> simp [Registers.status]

theorem status_kxPos (r : Registers) : r.status.extractLsb' 5 4 = r.kxPos := by
  ext i hi
  interval_cases i <;> simp [Registers.status]

theorem status_rkValid (r : Registers) : r.status.getLsbD 9 = r.rkValid := by simp [Registers.status]

theorem status_schedValid (r : Registers) : r.status.getLsbD 10 = r.schedValid := by simp [Registers.status]

theorem status_resultValid (r : Registers) : r.status.getLsbD 11 = r.resultValid := by simp [Registers.status]

theorem status_keyWv (r : Registers) : r.status.extractLsb' 12 4 = r.keyWv := by
  ext i hi
  interval_cases i <;> simp [Registers.status]

theorem status_stateWv (r : Registers) : r.status.extractLsb' 16 4 = r.stateWv := by
  ext i hi
  interval_cases i <;> simp [Registers.status]

theorem status_busy (r : Registers) : r.status.getLsbD 20 = r.busy := by simp [Registers.status]

theorem status_reserved (r : Registers) : r.status.extractLsb' 21 11 = 0 := by
  ext i hi
  interval_cases i <;> simp [Registers.status]

/-- The FCODE field holds the number of the recorded code (60_exceptions.md R105). -/
theorem status_fcode_of_eq {r : Registers} {code : FaultCode} (h : r.fcode = code) :
    r.status.extractLsb' 1 4 = code.bits := h ▸ status_fcode r

/-- Settles O26, field by field; the numbers of R105 are those of `FaultCode.bits`. -/
theorem statusFields : Obligations.StatusFields := fun r =>
  ⟨status_fault r, status_fcode r, status_kxPos r, status_rkValid r, status_schedValid r, status_resultValid r,
    status_keyWv r, status_stateWv r, status_busy r, status_reserved r, status_fcode_of_eq, status_fcode_of_eq,
    status_fcode_of_eq, status_fcode_of_eq, status_fcode_of_eq, status_fcode_of_eq, status_fcode_of_eq,
    status_fcode_of_eq, status_fcode_of_eq⟩

end Sys2Proof.Machine

/-! The register map (20_memory.md R30, R35), read in both directions. -/

namespace Sys2Proof.Machine

theorem Reg.offset_key (c : Fin 4) : (Reg.key c).offset = BitVec.ofNat 8 (0x10 + 4 * c.val) :=
  (BitVec.ofNat_add _ _).symm

theorem Reg.offset_state (c : Fin 4) : (Reg.state c).offset = BitVec.ofNat 8 (0x20 + 4 * c.val) :=
  (BitVec.ofNat_add _ _).symm

theorem Reg.offset_rk (c : Fin 4) : (Reg.rk c).offset = BitVec.ofNat 8 (0x30 + 4 * c.val) :=
  (BitVec.ofNat_add _ _).symm

theorem Reg.offset_sched (i : Fin 10) (c : Fin 4) :
    (Reg.sched i c).offset = BitVec.ofNat 8 (0x40 + 16 * i.val + 4 * c.val) := by
  rw [Nat.add_assoc]
  exact (BitVec.ofNat_add _ _).symm

@[simp] theorem regAt_offset (reg : Reg) : regAt reg.offset = some reg := by
  cases reg with
  | cmd | status | finfo | result => rfl
  | key c | state c | rk c => fin_cases c <;> rfl
  | sched i c => revert i c; decide

/-- A word is found at its own offset only: each line of the map fixes the offset, or its range, in which bits [3:2]
give the column. -/
theorem offset_of_regAt {off : BitVec 8} {reg : Reg} (h : regAt off = some reg) : reg.offset = off := by
  have hlt := off.isLt
  apply BitVec.eq_of_toNat_eq
  unfold regAt at h
  split_ifs at h <;> cases h
  all_goals
    simp [Reg.offset, columnAt]
    omega

theorem regAt_eq_some_iff {off : BitVec 8} {reg : Reg} : regAt off = some reg ↔ off = reg.offset :=
  ⟨fun h => (offset_of_regAt h).symm, fun h => h ▸ regAt_offset reg⟩

theorem regAt_eq_none_iff {off : BitVec 8} : regAt off = none ↔ off.toNat % 4 ≠ 0 ∨ 0xE0 ≤ off.toNat := by
  unfold regAt
  split_ifs <;> simp <;> omega

/-- Settles O21, by reading the map in both directions. -/
theorem registerMapIsExact : Obligations.RegisterMapIsExact :=
  ⟨fun _ _ => regAt_eq_some_iff, fun _ => regAt_eq_none_iff⟩

/-- The words that the host may write lie, aligned, at 0x00 and from 0x10 to 0x2C (20_memory.md R30). -/
theorem Reg.offset_of_writable {reg : Reg} (h : reg.writable = true) :
    reg.offset.toNat % 4 = 0 ∧
      (reg.offset.toNat = 0x00 ∨ (0x10 ≤ reg.offset.toNat ∧ reg.offset.toNat < 0x30)) := by
  cases reg with
  | cmd => exact ⟨rfl, .inl rfl⟩
  | key c | state c => revert c; decide
  | status | finfo | result | rk _ | sched _ _ => cases h

end Sys2Proof.Machine

/-! Accesses of an idle core (20_memory.md R35 to R37): a 4-byte access at a word's offset reaches the word, and every
other access meets BUS_ERROR. -/

namespace Sys2Proof.Machine

section IdleAccess

variable {r : Registers} (hb : r.busy = false)
include hb

theorem access_offset {α : Type} (isRead : Bool) (reg : Reg) (k : Reg → Except FaultCode α) :
    access r isRead reg.offset 4 k = k reg := by
  simp [access, hb]

theorem access_illegal {α : Type} (isRead : Bool) {off : BitVec 8} {size : Nat} (k : Reg → Except FaultCode α)
    (h : size ≠ 4 ∨ regAt off = none) : access r isRead off size k = .error .busError := by
  rcases h with hsize | hnone
  · have hcond : (size == 4) = false := beq_eq_false_iff_ne.mpr hsize
    simp [access, hb, hcond]
  · cases hsize : size == 4 <;> simp [access, hb, hsize, hnone]

theorem Registers.read_offset (reg : Reg) : r.read reg.offset 4 = r.readReg reg := access_offset hb _ reg _

/-- A value is read from a word of the map, by a 4-byte access. -/
theorem Registers.read_eq_ok_iff {off : BitVec 8} {size : Nat} {w : Word32} :
    r.read off size = .ok w ↔ size = 4 ∧ ∃ reg : Reg, off = reg.offset ∧ r.readReg reg = .ok w := by
  constructor
  · intro h
    obtain ⟨hsize, reg, hreg, hw, -⟩ := access_eq_ok h
    exact ⟨hsize, reg, regAt_eq_some_iff.mp hreg, hw⟩
  · rintro ⟨rfl, reg, rfl, hw⟩
    rw [Registers.read_offset hb, hw]

end IdleAccess

/-- The reads with a defined value are the words of the map whose read is no fault (20_memory.md R36). -/
theorem readsAs_iff {r : Registers} {off : BitVec 8} {w : Word32} :
    ReadsAs r off w ↔ ∃ reg : Reg, off = reg.offset ∧ r.readReg reg = .ok w := by
  constructor
  · intro h
    cases h with
    | cmd => exact ⟨.cmd, rfl, rfl⟩
    | status => exact ⟨.status, rfl, rfl⟩
    | finfo => exact ⟨.finfo, rfl, rfl⟩
    | result hv => exact ⟨.result, rfl, require_eq_ok.mpr ⟨hv, rfl⟩⟩
    | key c hv => exact ⟨.key c, (Reg.offset_key c).symm, require_eq_ok.mpr ⟨hv, rfl⟩⟩
    | state c hv => exact ⟨.state c, (Reg.offset_state c).symm, require_eq_ok.mpr ⟨hv, rfl⟩⟩
    | rk c hv => exact ⟨.rk c, (Reg.offset_rk c).symm, require_eq_ok.mpr ⟨hv, rfl⟩⟩
    | sched i c hv => exact ⟨.sched i c, (Reg.offset_sched i c).symm, require_eq_ok.mpr ⟨hv, rfl⟩⟩
  · rintro ⟨reg, rfl, hw⟩
    rcases readReg_eq_ok hw with ⟨rfl, rfl⟩ | ⟨rfl, rfl⟩ | ⟨rfl, rfl⟩ | ⟨rfl, hv, rfl⟩ | ⟨c, rfl, hv, rfl⟩ |
      ⟨c, rfl, hv, rfl⟩ | ⟨c, rfl, hv, rfl⟩ | ⟨i, c, rfl, hv, rfl⟩
    · exact .cmd
    · exact .status
    · exact .finfo
    · exact .result hv
    · exact Reg.offset_key c ▸ .key c hv
    · exact Reg.offset_state c ▸ .state c hv
    · exact Reg.offset_rk c ▸ .rk c hv
    · exact Reg.offset_sched i c ▸ .sched i c hv

/-! Host reads (20_memory.md R36, R38, R40). -/

theorem hostRead_of_read_ok {s : State} {off : BitVec 8} {size : Nat} {w : Word32}
    (h : s.regs.read off size = .ok w) : hostRead off size s = .next (s.respond w) := by
  simp only [hostRead, h]

theorem hostRead_of_read_error {s : State} {off : BitVec 8} {size : Nat} {code : FaultCode}
    (h : s.regs.read off size = .error code) :
    hostRead off size s = .next (s.raise code (off.setWidth 32)).respondFree := by
  simp only [hostRead, h]

theorem State.raise_eq_afterFault {s : State} (hf : s.regs.fault = false) (code : FaultCode) (info : Word32) :
    s.raise code info = s.afterFault code info := s.raise_of_not_fault code info hf

/-- With FAULT = 0 the fault of a read is recorded. -/
theorem readRaises_of_read_error {s : State} {off : BitVec 8} {size : Nat} {code : FaultCode}
    (hf : s.regs.fault = false) (h : s.regs.read off size = .error code) : s.ReadRaises off size code := by
  refine ⟨(s.afterFault code (off.setWidth 32)).respondFree, ?_, rfl, rfl, rfl⟩
  rw [hostRead_of_read_error h, State.raise_eq_afterFault hf]

/-- A 4-byte read of a word whose contents need a valid bit. -/
theorem hostRead_offset_of_require {s : State} (h : s.Ready) {reg : Reg} {valid : Bool} {w : Word32}
    (hr : s.regs.readReg reg = require valid .unwrittenRead (.ok w)) :
    if valid then hostRead reg.offset 4 s = .next (s.respond w) else s.ReadRaises reg.offset 4 .unwrittenRead := by
  obtain ⟨hf, hb⟩ := h
  rw [← Registers.read_offset hb] at hr
  cases valid with
  | true => exact hostRead_of_read_ok hr
  | false => exact readRaises_of_read_error hf hr

theorem readRaises_illegal {s : State} (h : s.Ready) {off : BitVec 8} {size : Nat}
    (hill : size ≠ 4 ∨ regAt off = none) : s.ReadRaises off size .busError := by
  obtain ⟨hf, hb⟩ := h
  exact readRaises_of_read_error hf (access_illegal hb true _ hill)

/-- Settles O22, word by word: each is read at its offset, under the valid bit its contents need. -/
theorem legalReads : Obligations.LegalReads := by
  intro s h
  have hread (reg : Reg) {w : Word32} (hw : s.regs.readReg reg = .ok w) :
      hostRead reg.offset 4 s = .next (s.respond w) :=
    hostRead_of_read_ok ((Registers.read_offset h.2 reg).trans hw)
  exact ⟨hread .cmd rfl, hread .status rfl, hread .finfo rfl, hostRead_offset_of_require h (reg := .result) rfl,
    fun c => Reg.offset_key c ▸ hostRead_offset_of_require h (reg := .key c) rfl,
    fun c => Reg.offset_state c ▸ hostRead_offset_of_require h (reg := .state c) rfl,
    fun c => Reg.offset_rk c ▸ hostRead_offset_of_require h (reg := .rk c) rfl,
    fun i c => Reg.offset_sched i c ▸ hostRead_offset_of_require h (reg := .sched i c) rfl,
    fun _ hoff => readRaises_illegal h (.inr (regAt_eq_none_iff.mpr hoff))⟩

/-! Host writes (20_memory.md R37, R38). -/

theorem hostWrite_of_fault {s : State} (hf : s.regs.fault = true) (off : BitVec 8) (size : Nat) (v : Word32) :
    hostWrite off size v s = .next s := by
  simp [hostWrite, hf]

/-- Settles O17: a write is ignored, and a read returns its value or meets a fault that is not recorded. -/
theorem faultedCoreIsQuiescent : Obligations.FaultedCoreIsQuiescent := by
  intro s off size hf
  refine ⟨hostWrite_of_fault hf off size, fun hb => ⟨fun w hw => ?_, fun hno => ?_⟩⟩
  · exact hostRead_of_read_ok ((Registers.read_eq_ok_iff hb).mpr ⟨rfl, readsAs_iff.mp hw⟩)
  · cases hr : s.regs.read off size with
    | ok w =>
      obtain ⟨hsize, hw⟩ := (Registers.read_eq_ok_iff hb).mp hr
      exact absurd ⟨w, readsAs_iff.mpr hw⟩ (hno.resolve_left (not_not_intro hsize))
    | error code =>
      refine ⟨s.respondFree, ?_, rfl, rfl, rfl⟩
      rw [hostRead_of_read_error hr, State.raise_of_fault _ _ _ hf]

theorem hostWrite_offset {s : State} (h : s.Ready) (reg : Reg) (v : Word32) :
    hostWrite reg.offset 4 v s = writeReg reg reg.offset v s := by
  obtain ⟨hf, hb⟩ := h
  have htarget : s.regs.writeTarget reg.offset 4 = .ok reg := access_offset hb false reg _
  simp [hostWrite, hf, htarget]

theorem hostWrite_illegal {s : State} (h : s.Ready) {off : BitVec 8} {size : Nat} (v : Word32)
    (hill : size ≠ 4 ∨ regAt off = none) :
    hostWrite off size v s = .next (s.afterFault .busError (off.setWidth 32)) := by
  obtain ⟨hf, hb⟩ := h
  have htarget : s.regs.writeTarget off size = .error .busError := access_illegal hb false _ hill
  simp [hostWrite, hf, htarget, State.raise_eq_afterFault hf]

/-- A read-only word. -/
theorem writeReg_of_not_writable {reg : Reg} (h : reg.writable = false) (off : BitVec 8) (v : Word32) (s : State) :
    writeReg reg off v s = .next (s.raise .busError (off.setWidth 32)) := by
  cases reg with
  | cmd | key _ | state _ => cases h
  | status | finfo | result | rk _ | sched _ _ => rfl

theorem hostWrite_of_not_writable {s : State} (h : s.Ready) {reg : Reg} (hreg : reg.writable = false) (v : Word32) :
    hostWrite reg.offset 4 v s = .next (s.afterFault .busError (reg.offset.setWidth 32)) := by
  rw [hostWrite_offset h, writeReg_of_not_writable hreg, State.raise_eq_afterFault h.1]

/-- Settles O23, word by word; an offset outside the writable words holds a read-only word or none. -/
theorem legalWrites : Obligations.LegalWrites := by
  intro s v h
  refine ⟨hostWrite_offset h .cmd v, fun c => ?_, fun c => ?_, fun off hoff => ?_⟩
  · exact Reg.offset_key c ▸ hostWrite_offset h (.key c) v
  · exact Reg.offset_state c ▸ hostWrite_offset h (.state c) v
  · cases hreg : regAt off with
    | none => exact hostWrite_illegal h v (.inr hreg)
    | some reg =>
      obtain rfl := regAt_eq_some_iff.mp hreg
      refine hostWrite_of_not_writable h (Bool.eq_false_of_not_eq_true fun hw => ?_) v
      obtain ⟨haligned, hrange⟩ := Reg.offset_of_writable hw
      simp only [List.mem_cons, List.not_mem_nil, or_false] at hoff
      omega

/-- Settles O24: such an access addresses no word with 4 bytes, for a read and a write alike. -/
theorem illegalAccessesRaiseBusError : Obligations.IllegalAccessesRaiseBusError := by
  intro s off size v h hill
  have hno : size ≠ 4 ∨ regAt off = none := hill.imp_right regAt_eq_none_iff.mpr
  exact ⟨readRaises_illegal h hno, hostWrite_illegal h v hno⟩

/-! Repeated accesses (20_memory.md R40). -/

@[simp] theorem Block.setCol_setCol_same (b : Block) (c : Fin 4) (w x : Column) :
    (b.setCol c w).setCol c x = b.setCol c x := by
  fin_cases c <;> rfl

@[simp] theorem Registers.writeKey_writeKey_same (r : Registers) (c : Fin 4) (v : Word32) :
    (r.writeKey c v).writeKey c v = r.writeKey c v := by
  simp [Registers.writeKey, BitVec.or_assoc]

@[simp] theorem Registers.writeState_writeState_same (r : Registers) (c : Fin 4) (v : Word32) :
    (r.writeState c v).writeState c v = r.writeState c v := by
  simp [Registers.writeState, BitVec.or_assoc]

/-- Settles O28: a KEY or STATE word takes an equal value again with no further change, and a read changes only the
response. -/
theorem repeatedAccessesAreIdempotent : Obligations.RepeatedAccessesAreIdempotent := by
  refine ⟨fun s c v h => ⟨?_, ?_⟩, fun s off size w hr => ?_⟩
  · have ht : (s.setRegs (s.regs.writeKey c v)).Ready := h
    refine ⟨_, hostWrite_offset h (.key c) v, (hostWrite_offset ht (.key c) v).trans ?_⟩
    simp [writeReg, State.setRegs]
  · have ht : (s.setRegs (s.regs.writeState c v)).Ready := h
    refine ⟨_, hostWrite_offset h (.state c) v, (hostWrite_offset ht (.state c) v).trans ?_⟩
    simp [writeReg, State.setRegs]
  · exact ⟨s.respond w, hostRead_of_read_ok hr, rfl, rfl, hostRead_of_read_ok (s := s.respond w) hr⟩

end Sys2Proof.Machine

/-! The step and the host's queue (20_memory.md R28, R34, R42). -/

namespace Sys2Proof.Machine

/-- Settles O9, by the two cases of the queue. -/
theorem transactionsAreTakenInOrder : Obligations.TransactionsAreTakenInOrder :=
  ⟨fun _ h => step_of_idle h, fun _ _ _ h => step_of_pending h⟩

theorem command_of_decode {v : Word32} {i : Instr} (h : decode v = .ok i) (s : State) : command v s = exec i s := by
  simp only [command, h]

theorem decodeTableWord_eq_some_iff {nbits w : Nat} {i : Instr} :
    decodeTableWord nbits w = some i ↔ decode (tableWord nbits w) = .ok i := by
  unfold decodeTableWord
  cases decode (tableWord nbits w) <;> simp

/-- A step that takes a CMD write executes its command. -/
theorem step_of_command {s : State} {v : Word32} {i : Instr} {rest : List Transaction} (h : s.Ready)
    (hp : s.pending = .write 0x00 4 v :: rest) (hd : decode v = .ok i) : step s = exec i (s.take rest) := by
  have ht : (s.take rest).Ready := h
  calc step s = hostWrite Reg.cmd.offset 4 v (s.take rest) := step_of_pending hp
    _ = command v (s.take rest) := hostWrite_offset ht .cmd v
    _ = exec i (s.take rest) := command_of_decode hd _

/-- Settles O8: a fetch word is a CMD write placed first in the queue. -/
theorem stepRunsDecodedCommand : Obligations.StepRunsDecodedCommand := by
  refine ⟨fun _ _ _ _ h hp hd => step_of_command h hp hd, fun s nbits w i h hd => ?_⟩
  have hr : (s.withFetchWord nbits w).Ready := h
  exact step_of_command hr rfl (decodeTableWord_eq_some_iff.mp hd)

/-! Every operation answers a next state and leaves the queue as it is. -/

theorem exec_next (i : Instr) (s : State) : ∃ t, exec i s = .next t ∧ t.pending = s.pending := by
  rw [exec_eq_complete]
  cases commandResult i s.regs with
  | ok r => exact ⟨_, complete_ok _ r s, s.setRegs_pending r⟩
  | error code => exact ⟨_, complete_error _ code s, s.raise_pending code _⟩

theorem command_next (v : Word32) (s : State) : ∃ t, command v s = .next t ∧ t.pending = s.pending := by
  unfold command
  split
  · exact exec_next _ s
  · exact ⟨_, rfl, s.raise_pending _ v⟩

theorem hostRead_next (off : BitVec 8) (size : Nat) (s : State) :
    ∃ t, hostRead off size s = .next t ∧ t.pending = s.pending := by
  cases hr : s.regs.read off size with
  | ok w => exact ⟨_, hostRead_of_read_ok hr, s.respond_pending w⟩
  | error code => exact ⟨_, hostRead_of_read_error hr, s.raise_pending code _⟩

theorem writeReg_next (reg : Reg) (off : BitVec 8) (v : Word32) (s : State) :
    ∃ t, writeReg reg off v s = .next t ∧ t.pending = s.pending := by
  cases reg with
  | cmd => exact command_next v s
  | key c | state c => exact ⟨_, rfl, s.setRegs_pending _⟩
  | status | finfo | result | rk _ | sched _ _ => exact ⟨_, rfl, s.raise_pending _ _⟩

theorem hostWrite_next (off : BitVec 8) (size : Nat) (v : Word32) (s : State) :
    ∃ t, hostWrite off size v s = .next t ∧ t.pending = s.pending := by
  unfold hostWrite
  split
  · exact ⟨s, rfl, rfl⟩
  · split
    · exact writeReg_next _ off v s
    · exact ⟨_, rfl, s.raise_pending _ _⟩

theorem transact_next (x : Transaction) (s : State) : ∃ t, transact x s = .next t ∧ t.pending = s.pending := by
  cases x with
  | read off size => exact hostRead_next off size s
  | write off size v => exact hostWrite_next off size v s
  | reset => exact ⟨s.assertReset, rfl, s.assertReset_pending⟩

/-- Settles O10, by the cases of the queue: an idle step stays, and a transaction is taken off its head. -/
theorem everyStepAnswersNext : Obligations.EveryStepAnswersNext := by
  intro s
  cases hp : s.pending with
  | nil => exact ⟨s, step_of_idle hp, hp⟩
  | cons x rest =>
    rw [step_of_pending hp]
    exact transact_next x (s.take rest)

/-! The host's window (20_memory.md R29). -/

theorem windowOffset_of_lt (base : Nat) {off : Nat} (h : off < 0x100) :
    windowOffset base (base + off) = some (BitVec.ofNat 8 off) := by
  simp [windowOffset, h]

theorem windowOffset_outside {base addr : Nat} (h : addr < base ∨ base + 0x100 ≤ addr) :
    windowOffset base addr = none :=
  if_neg (by omega)

/-- Settles O29: an address in the window is issued at its offset, and any other is dropped. -/
theorem windowDecoding : Obligations.WindowDecoding := by
  refine ⟨fun base _ => windowOffset_of_lt base, fun s base off size v h => ?_, fun s base addr size v h => ?_,
    Nat.mul_mod_right _ _⟩
  · simp only [State.issueRead, State.issueWrite, windowOffset_of_lt base h]
    exact ⟨rfl, rfl⟩
  · simp only [State.issueRead, State.issueWrite, windowOffset_outside h, and_self]

end Sys2Proof.Machine

/-! The packing of a column into a register word (20_memory.md R32). -/

namespace Sys2Proof.Machine

theorem Column.pack_row (w : Column) (j : Fin 4) : w.pack.extractLsb' (24 - 8 * j.val) 8 = w.row j := by
  ext i hi
  fin_cases j <;> interval_cases i <;> simp [Column.pack, Column.row]

@[simp] theorem Column.row_unpack (v : Word32) (j : Fin 4) :
    (Column.unpack v).row j = v.extractLsb' (24 - 8 * j.val) 8 := by
  simp [Column.unpack]

@[simp] theorem Column.unpack_pack (w : Column) : Column.unpack w.pack = w :=
  Column.ext_row fun j => (Column.row_unpack w.pack j).trans (w.pack_row j)

@[simp] theorem Column.pack_unpack (v : Word32) : (Column.unpack v).pack = v := by
  apply BitVec.eq_of_getLsbD_eq
  intro i hi
  interval_cases i <;> simp [Column.pack, Column.unpack, Column.ofRows]

/-- A field of a field is a field of the whole word. -/
theorem extractLsb'_of_extractLsb' {w start len start' len' : Nat} (x : BitVec w) (h : start' + len' ≤ len) :
    (x.extractLsb' start len).extractLsb' start' len' = x.extractLsb' (start + start') len' := by
  ext i hi
  have hin : start' + i < len := by omega
  simp [hin, Nat.add_assoc]

/-- Column `c` of a flat hex string is its `c`-th group of 8 digits, unpacked (20_memory.md R31, R32). -/
theorem Block.col_ofHex (h : BitVec 128) (c : Fin 4) :
    (Block.ofHex h).col c = Column.unpack (h.extractLsb' (96 - 32 * c.val) 32) := by
  refine Column.ext_row fun j => ?_
  have hpos : 120 - 8 * (4 * c.val + j.val) = (96 - 32 * c.val) + (24 - 8 * j.val) := by omega
  simp only [Block.ofHex, Block.ofBytes, Block.col_ofCols, Column.row_ofRows, Column.row_unpack, hpos]
  rw [extractLsb'_of_extractLsb' h (by omega)]

/-- Settles O27: the rows by their places, and the flat string by the column it unpacks to. -/
theorem packingIsBigEndian : Obligations.PackingIsBigEndian := by
  refine ⟨fun w => ⟨w.pack_row 0, w.pack_row 1, w.pack_row 2, w.pack_row 3, w.unpack_pack⟩, Column.pack_unpack,
    fun h c => ?_⟩
  rw [Block.col_ofHex, Column.pack_unpack]

end Sys2Proof.Machine

/-! The decoder against the reserved values of 30_encoding.md R55, and the two directions of the round trip. -/

namespace Sys2Proof

open Machine

/-! The key operand's fields (30_encoding.md R51, R55, R57). -/

/-- The values of KSEL and IDX that R55 reserves in a keyed command. -/
def ReservedKey (ksel : BitVec 2) (idx : BitVec 4) : Prop :=
  ksel = 3 ∨ (ksel = 2 ∧ (idx = 0 ∨ 11 ≤ idx.toNat)) ∨ ((ksel = 0 ∨ ksel = 1) ∧ idx ≠ 0)

@[simp] theorem keySelOf_bits (ks : KeySel) : keySelOf ks.kselBits ks.idxBits = ks := by
  cases ks <;> rfl

theorem reservedKey_bits_iff (ks : KeySel) : ReservedKey ks.kselBits ks.idxBits ↔ ks.wellFormed = false := by
  cases ks with
  | key | rk => simp [ReservedKey, KeySel.kselBits, KeySel.idxBits, KeySel.wellFormed]
  | sched idx =>
    revert idx
    unfold ReservedKey
    decide

/-- Fields that are not reserved are those of the key operand they name, which is well formed. -/
theorem keySelOf_of_not_reserved : ∀ {ksel : BitVec 2} {idx : BitVec 4}, ¬ ReservedKey ksel idx →
    (keySelOf ksel idx).wellFormed = true ∧ (keySelOf ksel idx).kselBits = ksel ∧
      (keySelOf ksel idx).idxBits = idx := by
  unfold ReservedKey
  decide

/-- R53's three tests of KSEL and IDX, together, are R55's reserved values. -/
theorem reservedKey_iff_decoderTests : ∀ (ksel : BitVec 2) (idx : BitVec 4), ReservedKey ksel idx ↔
    ksel = 3 ∨ (ksel = 2 ∧ ¬ (1 ≤ idx.toNat ∧ idx.toNat ≤ 10)) ∨ (ksel ≠ 2 ∧ idx ≠ 0) := by
  unfold ReservedKey
  decide

/-! The reserved values, by the kind of the word's opcode. -/

theorem mem_assignedOpcodes_of_keyed : ∀ op ∈ keyedOpcodes, op ∈ assignedOpcodes := by
  simp [keyedOpcodes, assignedOpcodes]

theorem keyed_takes_no_bytes : ∀ op ∈ keyedOpcodes, op ≠ 0x01 ∧ op ≠ 0x02 := by
  simp [keyedOpcodes]

theorem reservedField_iff_of_keyed {v : Word32} (h : opOf v ∈ keyedOpcodes) :
    ReservedField v ↔ rsvOf v ≠ 0 ∨ aOf v ≠ 0 ∨ bOf v ≠ 0 ∨ ReservedKey (kselOf v) (idxOf v) := by
  have hkeyed : opOf v ∈ [0x23, 0x24, 0x25] := h
  obtain ⟨h1, h2⟩ := keyed_takes_no_bytes _ h
  simp only [ReservedField, ReservedKey, hkeyed, h1, List.mem_cons, h2, List.not_mem_nil, ne_eq, or_self,
    not_false_eq_true, not_true_eq_false, true_and, false_and, false_or]

theorem reservedField_iff_of_plain {v : Word32} (h : opOf v ∉ keyedOpcodes) :
    ReservedField v ↔ rsvOf v ≠ 0 ∨ (opOf v ≠ 0x01 ∧ opOf v ≠ 0x02 ∧ aOf v ≠ 0) ∨ (opOf v ≠ 0x01 ∧ bOf v ≠ 0) ∨
      kselOf v ≠ 0 ∨ idxOf v ≠ 0 := by
  have hplain : opOf v ∉ [0x23, 0x24, 0x25] := h
  simp only [ReservedField, hplain, List.mem_cons, List.not_mem_nil]
  simp [and_assoc]

/-! The decoder (30_encoding.md R53), by the kind of the word's opcode. -/

theorem decode_of_not_assigned {v : Word32} (h : opOf v ∉ assignedOpcodes) : decode v = .error .illegalOpcode :=
  if_pos h

/-- R53's chain of refusals, on a keyed opcode, is R55's list of reserved values. -/
theorem decode_of_keyed {v : Word32} (h : opOf v ∈ keyedOpcodes) :
    decode v = if ReservedField v then .error .reservedField
      else .ok (keyedInstr (opOf v) (keySelOf (kselOf v) (idxOf v))) := by
  have hassigned := mem_assignedOpcodes_of_keyed _ h
  obtain ⟨h1, h2⟩ := keyed_takes_no_bytes _ h
  simp only [reservedField_iff_of_keyed h, reservedKey_iff_decoderTests]
  unfold decode
  grind

/-- The same chain on an opcode with no key operand, where KSEL and IDX must be 0. -/
theorem decode_of_plain {v : Word32} (h : opOf v ∈ assignedOpcodes) (hplain : opOf v ∉ keyedOpcodes) :
    decode v = if ReservedField v then .error .reservedField else .ok (plainInstr (opOf v) (aOf v) (bOf v)) := by
  simp only [reservedField_iff_of_plain hplain]
  unfold decode
  grind

theorem decode_of_reservedField {v : Word32} (h : opOf v ∈ assignedOpcodes) (hres : ReservedField v) :
    decode v = .error .reservedField := by
  by_cases hkeyed : opOf v ∈ keyedOpcodes
  · rw [decode_of_keyed hkeyed, if_pos hres]
  · rw [decode_of_plain h hkeyed, if_pos hres]

/-- A word that decodes has an assigned opcode and no reserved value. -/
theorem fields_of_decode {v : Word32} {i : Instr} (h : decode v = .ok i) :
    opOf v ∈ assignedOpcodes ∧ ¬ ReservedField v := by
  have hop : opOf v ∈ assignedOpcodes := by
    by_contra hop
    simp [decode_of_not_assigned hop] at h
  refine ⟨hop, fun hres => ?_⟩
  simp [decode_of_reservedField hop hres] at h

/-- Every other word of an assigned opcode is a command. -/
theorem exists_decode {v : Word32} (h : opOf v ∈ assignedOpcodes) (hres : ¬ ReservedField v) :
    ∃ i, decode v = .ok i := by
  by_cases hkeyed : opOf v ∈ keyedOpcodes
  · exact ⟨_, (decode_of_keyed hkeyed).trans (if_neg hres)⟩
  · exact ⟨_, (decode_of_plain h hkeyed).trans (if_neg hres)⟩

/-! Decoding after encoding. -/

/-- The word of a keyed command is refused exactly when its schedule index is reserved. -/
theorem decode_assembleKeyed {op : BitVec 8} (h : op ∈ keyedOpcodes) (ks : KeySel) :
    decode (assembleKeyed op ks) = if ks.wellFormed then .ok (keyedInstr op ks) else .error .reservedField := by
  have hop : opOf (assembleKeyed op ks) ∈ keyedOpcodes := by simpa [assembleKeyed] using h
  have hres : ReservedField (assembleKeyed op ks) ↔ ks.wellFormed = false := by
    rw [reservedField_iff_of_keyed hop, ← reservedKey_bits_iff]
    simp [assembleKeyed]
  simp only [decode_of_keyed hop, hres]
  cases ks.wellFormed <;> simp [assembleKeyed]

/-- Decoding the word of a command gives the command, or refuses its reserved schedule index. -/
theorem decode_encode (i : Instr) : decode (encode i) = if i.wellFormed then .ok i else .error .reservedField := by
  cases i with
  | gfMul a b | sbox a => simp [decode, encode, assignedOpcodes, keyedOpcodes, plainInstr, Instr.wellFormed]
  | addRoundKey ks | fullRound ks | finalRound ks => exact decode_assembleKeyed (by decide) ks
  | nop | kxInit | kxNext | kxExpand | subBytes | shiftRows | mixColumns | encrypt | encryptSched => rfl

/-- Settles O1: a well-formed command's word is not refused, and holds its operands in the fields they are read from. -/
theorem decodeOfEncode : Obligations.DecodeOfEncode := fun i h => (decode_encode i).trans (if_pos h)

/-! Encoding after decoding. -/

@[simp] theorem wellFormed_keyedInstr (op : BitVec 8) (ks : KeySel) :
    (keyedInstr op ks).wellFormed = ks.wellFormed := by
  simp only [keyedInstr, apply_ite Instr.wellFormed]
  simp only [Instr.wellFormed, ite_self]

theorem encode_keyedInstr {op : BitVec 8} (h : op ∈ keyedOpcodes) (ks : KeySel) :
    encode (keyedInstr op ks) = assembleKeyed op ks := by
  simp only [keyedOpcodes, List.mem_cons, List.not_mem_nil, or_false] at h
  rcases h with rfl | rfl | rfl <;> rfl

@[simp] theorem wellFormed_plainInstr (op : BitVec 8) (a b : Byte) : (plainInstr op a b).wellFormed = true := by
  simp only [plainInstr, apply_ite Instr.wellFormed]
  simp only [Instr.wellFormed, ite_self]

theorem encode_plainInstr_zero : ∀ op ∈ assignedOpcodes, op ∉ keyedOpcodes →
    encode (plainInstr op 0 0) = assemble op 0 0 0 0 := by
  decide

/-- The bytes A and B that a plain command does not use are 0 in its word: only GF_MUL uses B, and only GF_MUL and
SBOX use A. -/
theorem encode_plainInstr {op : BitVec 8} {a b : Byte} (h : op ∈ assignedOpcodes) (hplain : op ∉ keyedOpcodes)
    (ha : op ≠ 0x01 → op ≠ 0x02 → a = 0) (hb : op ≠ 0x01 → b = 0) :
    encode (plainInstr op a b) = assemble op 0 0 a b := by
  by_cases h1 : op = 0x01
  · subst h1
    rfl
  · obtain rfl := hb h1
    by_cases h2 : op = 0x02
    · subst h2
      rfl
    · obtain rfl := ha h1 h2
      exact encode_plainInstr_zero op h hplain

theorem encode_of_decode_keyed {v : Word32} (h : opOf v ∈ keyedOpcodes) (hres : ¬ ReservedField v) :
    (keySelOf (kselOf v) (idxOf v)).wellFormed = true ∧
      encode (keyedInstr (opOf v) (keySelOf (kselOf v) (idxOf v))) = v := by
  simp only [reservedField_iff_of_keyed h, ne_eq, not_or, not_not] at hres
  obtain ⟨hrsv, ha, hb, hkey⟩ := hres
  obtain ⟨hwf, hksel, hidx⟩ := keySelOf_of_not_reserved hkey
  refine ⟨hwf, ?_⟩
  calc encode (keyedInstr (opOf v) (keySelOf (kselOf v) (idxOf v)))
      = assemble (opOf v) (idxOf v) (kselOf v) 0 0 := by rw [encode_keyedInstr h, assembleKeyed, hksel, hidx]
    _ = v := by simpa only [ha, hb] using assemble_fields v hrsv

theorem encode_of_decode_plain {v : Word32} (h : opOf v ∈ assignedOpcodes) (hplain : opOf v ∉ keyedOpcodes)
    (hres : ¬ ReservedField v) : encode (plainInstr (opOf v) (aOf v) (bOf v)) = v := by
  rw [reservedField_iff_of_plain hplain] at hres
  push Not at hres
  obtain ⟨hrsv, ha, hb, hksel, hidx⟩ := hres
  calc encode (plainInstr (opOf v) (aOf v) (bOf v))
      = assemble (opOf v) 0 0 (aOf v) (bOf v) := encode_plainInstr h hplain ha hb
    _ = v := by rw [← hidx, ← hksel, assemble_fields v hrsv]

/-- Settles O2: the word is the assembly of its fields, and each field is one its command encodes. -/
theorem encodeOfDecode : Obligations.EncodeOfDecode := by
  intro v i h
  obtain ⟨hop, hres⟩ := fields_of_decode h
  by_cases hkeyed : opOf v ∈ keyedOpcodes
  · rw [decode_of_keyed hkeyed, if_neg hres] at h
    obtain rfl := Except.ok.inj h
    obtain ⟨hwf, henc⟩ := encode_of_decode_keyed hkeyed hres
    exact ⟨(wellFormed_keyedInstr _ _).trans hwf, henc⟩
  · rw [decode_of_plain hop hkeyed, if_neg hres] at h
    obtain rfl := Except.ok.inj h
    exact ⟨wellFormed_plainInstr _ _ _, encode_of_decode_plain hop hkeyed hres⟩

/-! Words the spec writes out (30_encoding.md R57; 41_key_expander.md R84; 43_encryption_engine.md R99). -/

/-- Settles O6: each word is the encoding of its command. -/
theorem exampleWordsDecode : Obligations.ExampleWordsDecode :=
  ⟨decode_encode (.gfMul 0x57 0x83), decode_encode (.sbox 0x53), decode_encode .kxNext,
    decode_encode (.addRoundKey .key), decode_encode (.fullRound .rk), decode_encode (.finalRound (.sched 10)),
    decode_encode .encrypt⟩

/-! The rows of the opcode table (30_encoding.md R52). -/

theorem encode_and_rowMask (i : Instr) : encode i &&& i.rowMask = i.rowMatch := by
  cases i with
  | gfMul a b => exact Laws.TableRow.gfMul a b
  | sbox a => exact Laws.TableRow.sbox a
  | addRoundKey ks => exact Laws.TableRow.addRoundKey ks
  | fullRound ks => exact Laws.TableRow.fullRound ks
  | finalRound ks => exact Laws.TableRow.finalRound ks
  | nop | kxInit | kxNext | kxExpand | subBytes | shiftRows | mixColumns | encrypt | encryptSched => rfl

theorem Instr.opOf_rowMask (j : Instr) : opOf j.rowMask = 0xFF := by
  cases j <;> dsimp only [Instr.rowMask] <;> rfl

theorem Instr.rowMatch_eq_opOf (j : Instr) : j.rowMatch = (opOf j.rowMatch).setWidth 32 := by
  cases j <;> rfl

/-- Every row fixes the whole of OP, and its match is its opcode: a word's opcode names the row. -/
theorem rowMatch_of_and_rowMask {v : Word32} {j : Instr} (h : v &&& j.rowMask = j.rowMatch) :
    j.rowMatch = (opOf v).setWidth 32 := by
  have hop : opOf (v &&& j.rowMask) = opOf v :=
    calc opOf (v &&& j.rowMask) = opOf v &&& opOf j.rowMask := BitVec.extractLsb'_and
      _ = opOf v := by rw [j.opOf_rowMask]; exact BitVec.and_allOnes
  rw [j.rowMatch_eq_opOf, ← h, hop]

/-- Settles O5: an accepted word is its command's encoding, and a word's opcode names the one row it can match. -/
theorem tableRowsAreDisjoint : Obligations.TableRowsAreDisjoint := by
  intro v i h
  have hi : v &&& i.rowMask = i.rowMatch := (encodeOfDecode v i h).2 ▸ encode_and_rowMask i
  exact ⟨hi, fun j hj => (rowMatch_of_and_rowMask hj).trans (rowMatch_of_and_rowMask hi).symm⟩

end Sys2Proof

/-! A CMD write of a refused word, and the commands with a key operand (30_encoding.md R51, R53 to R55). -/

namespace Sys2Proof.Machine

theorem command_of_reject {v : Word32} {e : Reject} (h : decode v = .error e) (s : State) :
    command v s = .next (s.raise (rejectCode e) v) := by
  simp only [command, h]

/-- A CMD write of a refused word records the decoder's fault and changes nothing else. -/
theorem hostWrite_cmd_of_reject {s : State} (hs : s.Ready) {v : Word32} {e : Reject} (h : decode v = .error e) :
    hostWrite 0x00 4 v s = .next (s.afterFault (rejectCode e) v) :=
  calc hostWrite 0x00 4 v s = command v s := hostWrite_offset hs .cmd v
    _ = .next (s.raise (rejectCode e) v) := command_of_reject h s
    _ = .next (s.afterFault (rejectCode e) v) := by rw [State.raise_eq_afterFault hs.1]

theorem not_mem_assignedOpcodes_iff (op : BitVec 8) : op ∉ assignedOpcodes ↔ IllegalOpcode op := by
  simp only [assignedOpcodes, List.mem_cons, List.not_mem_nil, or_false, ← BitVec.toNat_inj, BitVec.reduceToNat]
  omega

theorem illegalOpcode_count :
    ((List.range 256).filter fun n => decide (IllegalOpcode (BitVec.ofNat 8 n))).length = 242 := by
  simp only [IllegalOpcode, BitVec.toNat_ofNat]
  decide +kernel

/-- Settles O3: the ranges are the gaps of the map, and a word with an opcode in one is refused as such. -/
theorem illegalOpcodesRaise : Obligations.IllegalOpcodesRaise :=
  ⟨not_mem_assignedOpcodes_iff, illegalOpcode_count, fun _ _ hs hop =>
    hostWrite_cmd_of_reject hs (decode_of_not_assigned ((not_mem_assignedOpcodes_iff _).mpr hop))⟩

/-- Settles O4: a word of an assigned opcode is refused exactly for R55's reserved values. -/
theorem reservedFieldsRaise : Obligations.ReservedFieldsRaise :=
  ⟨fun _ _ hs hop hres => hostWrite_cmd_of_reject hs (decode_of_reservedField hop hres),
    fun _ => ⟨fun ⟨_, h⟩ => fields_of_decode h, fun ⟨hop, hres⟩ => exists_decode hop hres⟩⟩

/-! Commands with a key operand (30_encoding.md R51; 42_round_pipeline.md R95 to R97). -/

theorem keyedResult_of_not_wellFormed {ks : KeySel} (h : ks.wellFormed = false) (f : Block → Block → Block)
    (r : Registers) : keyedResult f ks r = .error .reservedField := by
  simp [keyedResult, h]

theorem commandResult_of_not_wellFormed {i : Instr} (h : i.wellFormed = false) (r : Registers) :
    commandResult i r = .error .reservedField := by
  cases i with
  | addRoundKey ks | fullRound ks | finalRound ks => exact keyedResult_of_not_wellFormed h _ r
  | nop | gfMul _ _ | sbox _ | kxInit | kxNext | kxExpand | subBytes | shiftRows | mixColumns | encrypt
  | encryptSched => cases h

/-- Settles O7: the word of a well-formed command decodes to it, and of another is refused with the fault that the
command's own meaning raises. -/
theorem execIsCommandOfItsWord : Obligations.ExecIsCommandOfItsWord := by
  intro i s
  have hd := decode_encode i
  cases hwf : i.wellFormed with
  | true => exact command_of_decode (hd.trans (if_pos hwf)) s
  | false =>
    rw [hwf] at hd
    rw [command_of_reject hd, exec_eq_complete, commandResult_of_not_wellFormed hwf]
    rfl

theorem Supplies.wellFormed {ks : KeySel} {r : Registers} {k : Block} (h : Supplies ks r k) :
    ks.wellFormed = true := by
  cases ks with
  | key | rk => rfl
  | sched idx =>
    obtain ⟨-, i, hidx, -⟩ := h
    simp only [KeySel.wellFormed, hidx, Bool.and_eq_true, decide_eq_true_eq]
    omega

theorem withKeySrc_of_supplies {α : Type} {ks : KeySel} {r : Registers} {b : Block} (h : Supplies ks r b)
    (k : Block → Except FaultCode α) : withKeySrc ks r k = k b := by
  cases ks with
  | key =>
    obtain ⟨hwv, rfl⟩ := h
    simp [withKeySrc, withKey, Registers.keyFull_iff.mpr hwv]
  | rk =>
    obtain ⟨hvalid, rfl⟩ := h
    simp [withKeySrc, withRk, hvalid]
  | sched idx =>
    obtain ⟨hvalid, i, hidx, rfl⟩ := h
    simp [withKeySrc, withSched, schedIndex_eq_some.mpr hidx, hvalid]

/-- A keyed command whose operands are all readable completes, and writes STATE only. -/
theorem keyedResult_of_supplies {ks : KeySel} {r : Registers} {k : Block} (hst : r.stateWv = 0b1111#4)
    (hk : Supplies ks r k) (f : Block → Block → Block) : keyedResult f ks r = .ok (r.putState (f r.state k)) := by
  have hfull : r.stateFull = true := beq_iff_eq.mpr hst
  simp [keyedResult, hk.wellFormed, withState, hfull, withKeySrc_of_supplies hk]

/-- Settles O48: the three commands are one operation on STATE and the key Block. -/
theorem keyedCommandsComplete : Obligations.KeyedCommandsComplete := by
  intro s ks k hst hk
  have hcomplete (word : Word32) (f : Block → Block → Block) :
      complete word (keyedResult f ks s.regs) s = .next (s.setRegs (s.regs.putState (f s.regs.state k))) := by
    rw [keyedResult_of_supplies hst hk, complete_ok]
  exact ⟨hcomplete _ addRoundKey, hcomplete _ fullRound, hcomplete _ finalRound⟩

end Sys2Proof.Machine

/-! The Galois engine by formulas (40_primitives.md R65, R66, R69). -/

namespace Sys2Proof.Machine

theorem xtime_toNat (a : Byte) :
    (xtime a).toNat = (2 * a.toNat % 256) ^^^ (if 128 ≤ a.toNat then 0x1B else 0) := by
  have hmsb : a.getLsbD 7 = decide (128 ≤ a.toNat) := BitVec.msb_eq_decide a
  have hshift : (a <<< 1).toNat = 2 * a.toNat % 256 := by
    rw [BitVec.toNat_shiftLeft, Nat.shiftLeft_eq, Nat.mul_comm, pow_one]
  rw [xtime, BitVec.toNat_xor, hshift, hmsb]
  by_cases h : 128 ≤ a.toNat
  · simp [h]
  · simp [h]

/-- After `n` turns the accumulator holds the selected doublings so far, and the multiplicand its `n`-th doubling. -/
theorem foldl_gmulStep_range (a b : Byte) (n : Nat) :
    (List.range n).foldl (gmulStep b) (0, a) =
      ((List.range n).foldl (fun p i => if b.getLsbD i then p ^^^ xtime^[i] a else p) 0, xtime^[n] a) := by
  induction n with
  | zero => rfl
  | succ n ih => simp only [List.range_succ, List.foldl_append, ih, List.foldl_cons, List.foldl_nil, gmulStep,
      Function.iterate_succ_apply']

theorem gmul_eq_foldl_doublings (a b : Byte) :
    gmul a b = (List.range 8).foldl (fun p i => if b.getLsbD i then p ^^^ xtime^[i] a else p) 0 :=
  congrArg Prod.fst (foldl_gmulStep_range a b 8)

theorem rotl8_eq_rotateLeft (b : Byte) {n : Nat} (h : n < 8) : rotl8 b n = b.rotateLeft n := by
  rw [rotl8, BitVec.rotateLeft_def, Nat.mod_eq_of_lt h]

theorem getLsbD_rotl8 (b : Byte) {n : Nat} (hn : n < 8) (i : Fin 8) :
    (rotl8 b n).getLsbD i.val = b.getLsbD ((i.val + (8 - n)) % 8) := by
  rw [rotl8_eq_rotateLeft b hn, BitVec.getLsbD_rotateLeft, Nat.mod_eq_of_lt hn]
  by_cases h : i.val < n
  · rw [decide_eq_true h, cond_true, Nat.mod_eq_of_lt (by omega), Nat.add_comm]
  · have hmod : (i.val + (8 - n)) % 8 = i.val - n := by omega
    rw [decide_eq_false h, cond_false, hmod, decide_eq_true i.isLt, Bool.true_and]

theorem affine_getLsbD (b : Byte) (i : Fin 8) : (affine b).getLsbD i.val =
    (b.getLsbD i.val ^^ b.getLsbD ((i.val + 4) % 8) ^^ b.getLsbD ((i.val + 5) % 8) ^^
      b.getLsbD ((i.val + 6) % 8) ^^ b.getLsbD ((i.val + 7) % 8) ^^ (0x63 : Byte).getLsbD i.val) := by
  simp only [affine, BitVec.getLsbD_xor, getLsbD_rotl8, Nat.reduceLT, Nat.reduceSub]
  simp only [Bool.xor_assoc, Bool.xor_comm, Bool.xor_left_comm]

/-- The transform that undoes `affine`. -/
def affineInv (b : Byte) : Byte := rotl8 b 1 ^^^ rotl8 b 3 ^^^ rotl8 b 6 ^^^ 0x05

theorem affineInv_affine : ∀ b : Byte, affineInv (affine b) = b := by decide +kernel

/-- Settles O30, by the three formulas: doubling as a shift, the loop after its eight turns, rotations as bit moves. -/
theorem galoisEngineFormulas : Obligations.GaloisEngineFormulas :=
  ⟨xtime_toNat, gmul_eq_foldl_doublings, affine_getLsbD⟩

end Sys2Proof.Machine

/-! GF(2^8) (40_primitives.md R67, R68). A map that respects XOR and xtime goes through the multiplier's loop. xtime is
such a map, and so is multiplication by a fixed byte; the laws of the ring are read off that. -/

namespace Sys2Proof.Machine

/-- A map of bytes that respects XOR and xtime. -/
structure XtimeLinear (f : Byte → Byte) : Prop where
  map_xor : ∀ a b, f (a ^^^ b) = f a ^^^ f b
  map_xtime : ∀ a, f (xtime a) = xtime (f a)

theorem XtimeLinear.map_zero {f : Byte → Byte} (h : XtimeLinear f) : f 0 = 0 :=
  calc f 0 = f 0 ^^^ f 0 := h.map_xor 0 0
    _ = 0 := BitVec.xor_self

/-- Such a map may be applied before the loop or after it: each turn respects it. -/
theorem XtimeLinear.map_gmul {f : Byte → Byte} (h : XtimeLinear f) (a b : Byte) : f (gmul a b) = gmul (f a) b := by
  have hturn (s : Byte × Byte) (i : Nat) : gmulStep b (s.map f f) i = (gmulStep b s i).map f f := by
    simp only [gmulStep, Prod.map, h.map_xor, h.map_xtime, apply_ite f]
  have hloop := List.foldl_hom (Prod.map f f) (init := (0, a)) (l := [0, 1, 2, 3, 4, 5, 6, 7]) hturn
  rw [Prod.map_apply, h.map_zero] at hloop
  exact (congrArg Prod.fst hloop).symm

theorem xtime_linear : XtimeLinear xtime where
  map_xor a b := by
    have hreduce : ∀ x y : Bool, (if x ^^ y then 0x1B#8 else 0x00#8) =
        (if x then 0x1B#8 else 0x00#8) ^^^ (if y then 0x1B#8 else 0x00#8) := by decide
    simp only [xtime, BitVec.shiftLeft_xor_distrib, BitVec.getLsbD_xor, hreduce]
    ac_rfl
  map_xtime _ := rfl

/-- The XOR of two pairs (accumulator, multiplicand). -/
def xorPair (s t : Byte × Byte) : Byte × Byte := (s.1 ^^^ t.1, s.2 ^^^ t.2)

theorem gmulStep_xorPair (b : Byte) (s t : Byte × Byte) (i : Nat) :
    xorPair (gmulStep b s i) (gmulStep b t i) = gmulStep b (xorPair s t) i := by
  simp only [gmulStep, xorPair, xtime_linear.map_xor]
  split
  · congr 1
    ac_rfl
  · rfl

theorem gmul_xor_left (a c b : Byte) : gmul (a ^^^ c) b = gmul a b ^^^ gmul c b := by
  have hloop := List.foldl_hom₂ [0, 1, 2, 3, 4, 5, 6, 7] xorPair (gmulStep b) (gmulStep b) (gmulStep b) (0, a) (0, c)
    (gmulStep_xorPair b)
  have hstart : xorPair (0, a) (0, c) = (0, a ^^^ c) := by simp only [xorPair, BitVec.xor_self, BitVec.ofNat_eq_ofNat]
  rw [gmul, ← hstart, hloop, xorPair, gmul, gmul]

/-- Multiplication by a fixed byte. -/
theorem gmul_left_linear (b : Byte) : XtimeLinear (gmul · b) where
  map_xor a c := gmul_xor_left a c b
  map_xtime a := (xtime_linear.map_gmul a b).symm

theorem zero_gmul (b : Byte) : gmul 0 b = 0 := (gmul_left_linear b).map_zero

/-- The doublings of 1 are the single bits, so those that `b` selects make up `b`. -/
theorem one_gmul : ∀ b : Byte, gmul 1 b = b := by decide +kernel

theorem gmul_right_comm (a b c : Byte) : gmul (gmul a b) c = gmul (gmul a c) b := (gmul_left_linear c).map_gmul a b

theorem gmul_comm (a b : Byte) : gmul a b = gmul b a :=
  calc gmul a b = gmul (gmul 1 a) b := by rw [one_gmul]
    _ = gmul (gmul 1 b) a := gmul_right_comm 1 a b
    _ = gmul b a := by rw [one_gmul]

theorem gmul_assoc (a b c : Byte) : gmul a (gmul b c) = gmul (gmul a b) c :=
  calc gmul a (gmul b c) = gmul (gmul b c) a := gmul_comm _ _
    _ = gmul (gmul b a) c := gmul_right_comm b c a
    _ = gmul (gmul a b) c := by rw [gmul_comm b a]

theorem gmul_xor_right (a b c : Byte) : gmul a (b ^^^ c) = gmul a b ^^^ gmul a c := by
  rw [gmul_comm, gmul_xor_left, gmul_comm b, gmul_comm c]

theorem gmul_zero (a : Byte) : gmul a 0 = 0 := by rw [gmul_comm, zero_gmul]

theorem gmul_one (a : Byte) : gmul a 1 = a := by rw [gmul_comm, one_gmul]

theorem gmul_two (a : Byte) : gmul a 2 = xtime a :=
  calc gmul a 2 = gmul (xtime 1) a := gmul_comm a 2
    _ = xtime (gmul 1 a) := (xtime_linear.map_gmul 1 a).symm
    _ = xtime a := by rw [one_gmul]

theorem gmul_three (a : Byte) : gmul a 3 = xtime a ^^^ a :=
  calc gmul a 3 = gmul a 2 ^^^ gmul a 1 := gmul_xor_right a 2 1
    _ = xtime a ^^^ a := by rw [gmul_two, gmul_one]

theorem ginv_zero : ginv 0 = 0 := by simp only [ginv, zero_gmul]

/-- R71's table, with its affine transform undone, holds the inverse of every nonzero byte, by inspection: that there is
one rests on 0x11B being irreducible, which is a fact about this one polynomial. -/
theorem gmul_affineInv_sbox : ∀ a : Byte, a ≠ 0 → gmul a (affineInv (sbox a)) = 1 := by decide +kernel

theorem gmul_ginv (a : Byte) (ha : a ≠ 0) : gmul a (ginv a) = 1 :=
  calc gmul a (ginv a) = gmul a (affineInv (affine (ginv a))) := by rw [affineInv_affine]
    _ = gmul a (affineInv (sbox a)) := by rw [sbox_eq_affine_ginv]
    _ = 1 := gmul_affineInv_sbox a ha

/-- Division by a nonzero byte undoes the multiplication. -/
theorem ginv_gmul_gmul {a : Byte} (ha : a ≠ 0) (b : Byte) : gmul (ginv a) (gmul a b) = b := by
  rw [gmul_assoc, gmul_comm (ginv a), gmul_ginv a ha, one_gmul]

theorem gmul_eq_zero_iff (a b : Byte) : gmul a b = 0 ↔ a = 0 ∨ b = 0 := by
  constructor
  · intro h
    by_cases ha : a = 0
    · exact .inl ha
    · have hb := ginv_gmul_gmul ha b
      rw [h, gmul_zero] at hb
      exact .inr hb.symm
  · rintro (rfl | rfl)
    · exact zero_gmul b
    · exact gmul_zero a

theorem eq_ginv_of_gmul_eq_one {a x : Byte} (h : gmul a x = 1) : x = ginv a := by
  have ha : a ≠ 0 := by
    rintro rfl
    exact absurd ((zero_gmul x).symm.trans h) (by decide)
  calc x = gmul (ginv a) (gmul a x) := (ginv_gmul_gmul ha x).symm
    _ = ginv a := by rw [h, gmul_one]

/-- Settles O31: the ring laws come from linearity, and the last one from the inverse. -/
theorem gmulFieldLaws : Obligations.GmulFieldLaws :=
  ⟨gmul_comm, gmul_assoc, gmul_xor_right, fun a => ⟨gmul_zero a, gmul_one a, gmul_two a, gmul_three a⟩,
    gmul_eq_zero_iff⟩

/-- Settles O32: multiplying by ginv(a) undoes multiplying by a, so an inverse of a is ginv(a). -/
theorem ginvIsTheInverse : Obligations.GinvIsTheInverse :=
  ⟨gmul_ginv, fun _ _ => eq_ginv_of_gmul_eq_one, ginv_zero⟩

end Sys2Proof.Machine

/-! The S-box is a bijection, since both of its stages are undone: the inverse by itself, the affine transform by its
own inverse (40_primitives.md R69, R70). -/

namespace Sys2Proof.Machine

theorem ginv_ginv (a : Byte) : ginv (ginv a) = a := by
  by_cases ha : a = 0
  · rw [ha, ginv_zero, ginv_zero]
  · exact (eq_ginv_of_gmul_eq_one ((gmul_comm _ _).trans (gmul_ginv a ha))).symm

theorem sbox_injective : Function.Injective sbox := by
  have hinv : Function.LeftInverse (ginv ∘ affineInv) sbox := fun x => by
    rw [sbox_eq_affine_ginv, Function.comp_apply, affineInv_affine, ginv_ginv]
  exact hinv.injective

theorem sbox_ne_self_and_ne_complement : ∀ x : Byte, sbox x ≠ x ∧ sbox x ≠ x ^^^ 0xFF := by decide +kernel

/-- Settles O34: an injective map of the finitely many bytes is bijective; the fixed points are by inspection of the
table, as in R70. -/
theorem sboxIsBijectiveWithoutFixedPoints : Obligations.SboxIsBijectiveWithoutFixedPoints :=
  ⟨Finite.injective_iff_bijective.mp sbox_injective, sbox_ne_self_and_ne_complement⟩

end Sys2Proof.Machine

/-! Block XOR, the primitive commands and the host's Blocks (40_primitives.md R60 to R64, R72 to R74). -/

namespace Sys2Proof.Machine

@[simp] theorem Block.at_xor (a b : Block) (r c : Fin 4) : (a.xor b).at r c = a.at r c ^^^ b.at r c := by
  simp [Block.at]

@[simp] theorem Block.byte_xor (a b : Block) (k : Fin 16) : (a.xor b).byte k = a.byte k ^^^ b.byte k :=
  Block.at_xor a b _ _

/-- Blocks with equal bytes are equal. -/
theorem Block.ext_at {a b : Block} (h : ∀ r c, a.at r c = b.at r c) : a = b :=
  Block.ext_col fun c => Column.ext_row fun r => h r c

@[simp] theorem Block.at_ofBytes (f : Nat → Byte) (r c : Fin 4) :
    (Block.ofBytes f).at r c = f (4 * c.val + r.val) := by
  simp [Block.at, Block.ofBytes]

@[simp] theorem Block.byte_ofBytes (f : Nat → Byte) (k : Fin 16) : (Block.ofBytes f).byte k = f k := by
  rw [Block.byte, Block.at_ofBytes, Nat.div_add_mod]

/-- Only the first 16 values of `f` matter. -/
theorem Block.ofBytes_congr {f g : Nat → Byte} (h : ∀ k < 16, f k = g k) : Block.ofBytes f = Block.ofBytes g :=
  Block.ext_at fun r c => by
    rw [Block.at_ofBytes, Block.at_ofBytes, h _ (by omega)]

@[simp] theorem Block.xor_xor_cancel_right (a b : Block) : (a.xor b).xor b = a :=
  Block.ext_at fun r c => by simp

@[simp] theorem Block.xor_self (a : Block) : a.xor a = Block.zero :=
  Block.ext_at fun r c => by simp [Block.zero]

/-- Settles O40, from the XOR at each row and column. -/
theorem blockXorLaws : Obligations.BlockXorLaws :=
  ⟨Block.byte_xor, fun a b => ⟨Block.xor_xor_cancel_right a b, Block.xor_self a⟩⟩

/-- Settles O43: the three results never fault, and SBOX's table is the construction. -/
theorem primitiveCommandsComplete : Obligations.PrimitiveCommandsComplete := by
  intro s a b
  refine ⟨complete_ok (encode .nop) s.regs s, complete_ok (encode (.gfMul a b)) (s.regs.putResult (gmul a b)) s, ?_⟩
  rw [← sbox_eq_affine_ginv]
  exact complete_ok (encode (.sbox a)) (s.regs.putResult (sbox a)) s

theorem hostBlock_byte (s : List Byte) (k : Fin 16) : (hostBlock s).byte k = s.getD k 0 := Block.byte_ofBytes _ k

theorem hostBlock_take (s : List Byte) : hostBlock (s.take 16) = hostBlock s :=
  Block.ofBytes_congr fun k hk => by
    simp only [List.getD_eq_getElem?_getD, List.getElem?_take_of_lt hk]

@[simp] theorem hostBlocks_length (s : List Byte) : (hostBlocks s).length = (s.length + 15) / 16 := by
  simp [hostBlocks]

theorem getElem_hostBlocks (s : List Byte) {j : Nat} (h : j < (hostBlocks s).length) :
    (hostBlocks s)[j] = hostBlock (s.drop (16 * j)) := by
  simp [hostBlocks]

/-- Settles O60: a Block reads its string's bytes by position, so only the first 16 of those that are left matter. -/
theorem hostBlockPreparation : Obligations.HostBlockPreparation := by
  refine ⟨fun s k => ?_, fun s => ⟨hostBlocks_length s, fun j h => ?_⟩⟩
  · rw [hostBlock_byte]
    exact ⟨List.getD_eq_getElem s 0, List.getD_eq_default s 0⟩
  · rw [getElem_hostBlocks, hostBlock_take, hostBlocks_length]
    exact ⟨rfl, fun _ => by omega⟩

end Sys2Proof.Machine

/-! The key schedule and the key expander's commands (41_key_expander.md R76 to R85): the schedule's functions, what
each command does where it completes, and the iteration of KX_NEXT. -/

namespace Sys2Proof.Machine

/-! The schedule's functions (R76 to R80). -/

/-- On the packed word RotWord is a rotation left by one byte: bit `i` below 8 comes from row 0, and every other bit
from 8 places below. -/
theorem pack_rotWord (w : Column) : (rotWord w).pack = w.pack <<< 8 ||| w.pack >>> 24 := by
  apply BitVec.eq_of_getLsbD_eq
  intro i hi
  interval_cases i <;> simp [rotWord, Column.pack]

/-- Settles O35: the rows by definition, the packed word bit by bit. -/
theorem rotWordRotatesTheWord : Obligations.RotWordRotatesTheWord := ⟨fun _ _ _ _ => rfl, pack_rotWord⟩

/-- The defining equation of the round constants after the first (R78). -/
theorem rcon_eq_xtime_pred : ∀ {i : Nat}, 2 ≤ i → rcon i = xtime (rcon (i - 1))
  | _ + 2, _ => rfl

/-- Settles O36: the recurrence holds at every round from 2 on, and the values follow from it. -/
theorem roundConstants : Obligations.RoundConstants :=
  ⟨rfl, fun _ h2 _ => rcon_eq_xtime_pred h2, by decide⟩

@[simp] theorem getElem_keyExpand (k : Block) (i : Fin 10) : (keyExpand k)[i] = keyIter k (i.val + 1) := by
  simp [keyExpand]

/-- Settles O37: KeyNext and KeyIter are written as the recurrence, and KeyExpand lists the iterates. -/
theorem keyScheduleRecurrence : Obligations.KeyScheduleRecurrence :=
  ⟨fun _ _ => ⟨rfl, rfl, rfl, rfl⟩, fun k => ⟨rfl, fun _ => rfl, getElem_keyExpand k⟩⟩

/-! The commands where they complete (R83 to R85). -/

/-- A command whose result is registers leaves these registers. -/
theorem exec_of_result_ok {i : Instr} {s : State} {r : Registers} (h : commandResult i s.regs = .ok r) :
    exec i s = .next (s.setRegs r) := by
  rw [exec_eq_complete, h, complete_ok]

/-- A command whose result is a fault records it under its own word, with FAULT = 0. -/
theorem exec_of_result_error {i : Instr} {s : State} {code : FaultCode} (hf : s.regs.fault = false)
    (h : commandResult i s.regs = .error code) : exec i s = .next (s.afterFault code (encode i)) := by
  rw [exec_eq_complete, h, complete_error, State.raise_eq_afterFault hf]

theorem withKey_of_full {α : Type} {r : Registers} (h : r.keyWv = 0b1111#4) (k : Block → Except FaultCode α) :
    withKey r k = k r.key := by
  rw [withKey, Registers.keyFull_iff.mpr h, require_true]

theorem withRk_of_valid {α : Type} {r : Registers} (h : r.rkValid = true) (k : Block → Except FaultCode α) :
    withRk r k = k r.rk := by
  rw [withRk, h, require_true]

theorem exec_kxInit {s : State} (hkey : s.regs.keyWv = 0b1111#4) :
    exec .kxInit s = .next (s.setRegs (s.regs.putRk s.regs.key 0)) :=
  exec_of_result_ok (withKey_of_full hkey fun key => .ok (s.regs.putRk key 0))

theorem exec_kxNext {s : State} (hrk : s.regs.rkValid = true) (hpos : s.regs.kxPos.toNat < 10) :
    exec .kxNext s = .next (s.setRegs
      (s.regs.putRk (keyNext s.regs.rk (s.regs.kxPos.toNat + 1)) (BitVec.ofNat 4 (s.regs.kxPos.toNat + 1)))) := by
  have hlt : s.regs.kxPos < 10 := hpos
  have hsucc : s.regs.kxPos + 1 = BitVec.ofNat 4 (s.regs.kxPos.toNat + 1) := by bv_omega
  have hnum : (BitVec.ofNat 4 (s.regs.kxPos.toNat + 1)).toNat = s.regs.kxPos.toNat + 1 :=
    Nat.mod_eq_of_lt (by omega)
  apply exec_of_result_ok
  simp only [commandResult, withRk_of_valid hrk, decide_eq_true hlt, require_true, hsucc, hnum]

theorem exec_kxExpand {s : State} (hkey : s.regs.keyWv = 0b1111#4) :
    exec .kxExpand s = .next (s.setRegs (s.regs.putSched (keyExpand s.regs.key))) :=
  exec_of_result_ok (withKey_of_full hkey fun key => .ok (s.regs.putSched (keyExpand key)))

/-- Settles O44, from KX_INIT's next state. -/
theorem kxInitCompletes : Obligations.KxInitCompletes := fun _ => exec_kxInit

theorem Registers.putRk_of_valid {r : Registers} (h : r.rkValid = true) (b : Block) (p : BitVec 4) :
    r.putRk b p = { r with rk := b, kxPos := p } := by
  rw [Registers.putRk, ← h]

/-- Settles O45, from KX_NEXT's next state: below 10 the four bits of KX_POS hold the next position. -/
theorem kxNextCompletes : Obligations.KxNextCompletes := fun s hrk hpos => by
  rw [exec_kxNext hrk hpos, Registers.putRk_of_valid hrk]
  rfl

/-- Settles O46, from KX_EXPAND's next state, in which SCHED is KeyExpand(KEY). -/
theorem kxExpandCompletes : Obligations.KxExpandCompletes := fun _ => exec_kxExpand

/-! KX_NEXT past round key 10 (R84, R126). -/

theorem exec_kxNext_overrun {s : State} (hf : s.regs.fault = false) (hrk : s.regs.rkValid = true)
    (hpos : 10 ≤ s.regs.kxPos.toNat) : exec .kxNext s = .next (s.afterFault .kxOverrun 0x00000011) := by
  have hge : ¬ s.regs.kxPos < 10 := Nat.not_lt.mpr hpos
  have hword : encode .kxNext = 0x00000011 := by decide
  rw [← hword]
  apply exec_of_result_error hf
  simp only [commandResult, withRk_of_valid hrk, decide_eq_false hge, require_false]

/-- A raise ends with FAULT = 1, whether or not it is the one recorded (R106, R109). -/
theorem State.raise_fault (s : State) (code : FaultCode) (info : Word32) : (s.raise code info).regs.fault = true := by
  rcases s.raise_eq code info with ⟨hf, heq⟩ | ⟨-, heq⟩ <;> rw [heq]
  · exact hf
  · rfl

/-- An ENCRYPT that ends without a fault leaves the expander valid at position 10 (R99). -/
theorem exec_encrypt_expander {s t : State} (h : exec .encrypt s = .next t) (hf : t.regs.fault = false) :
    t.regs.rkValid = true ∧ t.regs.kxPos = 10 := by
  rcases exec_eq_next h with ⟨r, hr, rfl⟩ | ⟨code, -, rfl⟩
  · dsimp only [commandResult] at hr
    obtain ⟨-, hr⟩ := withState_eq_ok.mp hr
    obtain ⟨-, hr⟩ := withKey_eq_ok.mp hr
    obtain rfl := Except.ok.inj hr
    exact ⟨rfl, rfl⟩
  · simp [State.raise_fault] at hf

/-- Settles O53: the position is 10 in the second case too. -/
theorem eleventhKxNextRaises : Obligations.EleventhKxNextRaises := by
  refine ⟨fun s => exec_kxNext_overrun, fun s t h hf => ?_⟩
  obtain ⟨hrk, hpos⟩ := exec_encrypt_expander h hf
  exact exec_kxNext_overrun hf hrk (by simp [hpos])

/-! The incremental path (R82): after each KX_NEXT the expander holds the next iterate of the key it started from. -/

/-- The state with the expander at position `n` of the schedule of `k`. -/
def State.expanderAt (s : State) (k : Block) (n : Nat) : State :=
  s.setRegs (s.regs.putRk (keyIter k n) (BitVec.ofNat 4 n))

theorem exec_kxInit_eq_expanderAt {s : State} (hkey : s.regs.keyWv = 0b1111#4) :
    exec .kxInit s = .next (s.expanderAt s.regs.key 0) := exec_kxInit hkey

theorem State.expanderAt_kxPos (s : State) (k : Block) {n : Nat} (hn : n ≤ 10) :
    (s.expanderAt k n).regs.kxPos.toNat = n := Nat.mod_eq_of_lt (by omega)

theorem exec_kxNext_expanderAt (s : State) (k : Block) {n : Nat} (hn : n < 10) :
    exec .kxNext (s.expanderAt k n) = .next (s.expanderAt k (n + 1)) := by
  have hpos : (s.expanderAt k n).regs.kxPos.toNat = n := s.expanderAt_kxPos k hn.le
  rw [exec_kxNext rfl (hpos.trans_lt hn), hpos]
  rfl

theorem execAll_cons_of_next {i : Instr} {is : List Instr} {s t : State} (h : exec i s = .next t) :
    execAll (i :: is) s = execAll is t := by
  simp only [execAll, h]

theorem execAll_replicate_kxNext (s : State) (k : Block) {m n : Nat} (h : n + m ≤ 10) :
    execAll (List.replicate m .kxNext) (s.expanderAt k n) = .next (s.expanderAt k (n + m)) := by
  induction m generalizing n with
  | zero => rfl
  | succ m ih =>
    rw [List.replicate_succ, execAll_cons_of_next (exec_kxNext_expanderAt s k (by omega)), ih (by omega),
      Nat.succ_add_eq_add_succ]

/-- Settles O56: KX_INIT puts the expander at position 0 of KEY's schedule, each KX_NEXT moves it on by one, and a valid
SCHED, which neither command writes, holds the same iterates. -/
theorem incrementalEqualsBatch : Obligations.IncrementalEqualsBatch := by
  intro s i hinv hkey
  have hrun : execAll (.kxInit :: List.replicate (i.val + 1) .kxNext) s =
      .next (s.expanderAt s.regs.key (i.val + 1)) := by
    rw [execAll_cons_of_next (exec_kxInit_eq_expanderAt hkey), execAll_replicate_kxNext s _ (by omega), Nat.zero_add]
  refine ⟨_, hrun, s.expanderAt_kxPos _ (by omega), (getElem_keyExpand _ i).symm, fun hsched => ?_⟩
  obtain ⟨-, hentries⟩ := hinv.sched_of_schedValid hsched
  exact (hentries i).symm

end Sys2Proof.Machine

/-! The round stages, the two rounds and their commands (42_round_pipeline.md R86 to R97): each stage by the bytes it
moves or mixes, then the commands where they complete. -/

namespace Sys2Proof.Machine

/-! SubBytes and the round functions (R86, R89 to R91). -/

@[simp] theorem subBytes_at (s : Block) (r c : Fin 4) : (subBytes s).at r c = sbox (s.at r c) := by
  simp [subBytes, Block.at]

/-- Settles O41: SubBytes and AddRoundKey byte by byte; the two rounds are defined as these sequences. -/
theorem roundFunctions : Obligations.RoundFunctions :=
  ⟨fun s _ => subBytes_at s _ _, Block.byte_xor, fun _ _ => rfl, fun _ _ => rfl⟩

/-! ShiftRows (R87). -/

@[simp] theorem shiftRows_at (s : Block) (r c : Fin 4) : (shiftRows s).at r c = s.at r (c + r) := by
  simp [shiftRows, Block.at]

/-- In flat bytes the source index is `5 * k` modulo 16: for `k = 4 * c + r`, adding `4 * k` keeps the row `r` and adds
`r` to the column `c`. -/
theorem shiftRows_byte (s : Block) (k : Fin 16) : (shiftRows s).byte k = s.byte (5 * k) := by
  have hrow : ∀ k : Fin 16, k.val % 4 = (5 * k).val % 4 := by decide
  have hcol : ∀ k : Fin 16, (k.val / 4 + k.val % 4) % 4 = (5 * k).val / 4 := by decide
  rw [Block.byte, shiftRows_at, Block.byte]
  exact congrArg₂ s.at (Fin.ext (hrow k)) (Fin.ext (hcol k))

theorem shiftRows_four_times (s : Block) : shiftRows (shiftRows (shiftRows (shiftRows s))) = s := by
  have hturn : ∀ r c : Fin 4, c + r + r + r + r = c := by decide
  exact Block.ext_at fun r c => by simp only [shiftRows_at, hturn]

/-- Settles O38: all of it is read off the rotation of row and column; the table lists the multiples of 5. -/
theorem shiftRowsPermutes : Obligations.ShiftRowsPermutes := by
  have htable : ∀ k : Fin 16,
      (#v[0, 5, 10, 15, 4, 9, 14, 3, 8, 13, 2, 7, 12, 1, 6, 11] : Vector (Fin 16) 16)[k] = 5 * k := by decide
  intro s
  refine ⟨shiftRows_at s, fun k => ?_, fun c => ?_, shiftRows_four_times s⟩
  · rw [shiftRows_byte, htable]
  · rw [shiftRows_at, add_zero]

/-! MixColumns (R88, R94). Its matrix squared is an involution, so the stage loses nothing. -/

theorem mixColumn_eq_xtime (a : Column) : mixColumn a =
    ⟨xtime a.r0 ^^^ (xtime a.r1 ^^^ a.r1) ^^^ a.r2 ^^^ a.r3,
      a.r0 ^^^ xtime a.r1 ^^^ (xtime a.r2 ^^^ a.r2) ^^^ a.r3,
      a.r0 ^^^ a.r1 ^^^ xtime a.r2 ^^^ (xtime a.r3 ^^^ a.r3),
      (xtime a.r0 ^^^ a.r0) ^^^ a.r1 ^^^ a.r2 ^^^ xtime a.r3⟩ := by
  simp only [mixColumn, gmul_two, gmul_three]

/-- The four formulas are one, turned from row to row. -/
theorem mixColumn_row (a : Column) (r : Fin 4) : (mixColumn a).row r =
    xtime (a.row r) ^^^ (xtime (a.row (r + 1)) ^^^ a.row (r + 1)) ^^^ a.row (r + 2) ^^^ a.row (r + 3) := by
  rw [mixColumn_eq_xtime]
  match r with
  | 0 => rfl
  | 1 | 2 | 3 =>
    simp only [Column.row, Fin.reduceAdd]
    ac_rfl

theorem mixColumn_of_equal_bytes (x : Byte) : mixColumn ⟨x, x, x, x⟩ = ⟨x, x, x, x⟩ := by
  simp [mixColumn_eq_xtime, ← BitVec.xor_assoc]

/-- Applied twice, it adds to each row 0x04 times the difference from the opposite row. -/
theorem mixColumn_mixColumn_row (a : Column) (r : Fin 4) :
    (mixColumn (mixColumn a)).row r = a.row r ^^^ xtime (xtime (a.row r ^^^ a.row (r + 2))) := by
  simp only [mixColumn_row, xtime_linear.map_xor, add_assoc, Fin.reduceAdd, add_zero]
  ac_nf
  simp

/-- Opposite rows get the same addend, which keeps their difference: the second time the addend cancels. -/
theorem mixColumn_mixColumn_involutive : Function.Involutive (mixColumn ∘ mixColumn) := fun a => by
  refine Column.ext_row fun r => ?_
  simp only [Function.comp_apply, mixColumn_mixColumn_row, xtime_linear.map_xor, add_assoc, Fin.reduceAdd, add_zero]
  ac_nf
  simp

theorem mixColumn_injective : Function.Injective mixColumn :=
  mixColumn_mixColumn_involutive.injective.of_comp

theorem mixColumns_col (s : Block) (c : Fin 4) : (mixColumns s).col c = mixColumn (s.col c) :=
  Block.col_mapCols mixColumn s c

theorem mixColumns_injective : Function.Injective mixColumns := fun s t h =>
  Block.ext_col fun c => mixColumn_injective <| by rw [← mixColumns_col, h, mixColumns_col]

/-- Settles O39: column by column, from the formulas of one column and its injectivity. -/
theorem mixColumnsFormulas : Obligations.MixColumnsFormulas :=
  ⟨fun s c => (mixColumns_col s c).trans (mixColumn_eq_xtime (s.col c)), mixColumn_of_equal_bytes,
    mixColumns_injective⟩

/-! The commands where they complete (R92 to R97). -/

/-- The state with `b` in STATE. -/
def State.putState (s : State) (b : Block) : State := s.setRegs (s.regs.putState b)

theorem Registers.stateFull_iff {r : Registers} : r.stateFull = true ↔ r.stateWv = 0b1111#4 := beq_iff_eq

theorem stageResult_of_full {r : Registers} (hst : r.stateWv = 0b1111#4) (f : Block → Block) :
    stageResult f r = .ok (r.putState (f r.state)) := by
  rw [stageResult, withState, Registers.stateFull_iff.mpr hst, require_true]

/-- A write of STATE leaves every key operand as it was. -/
theorem Supplies.putState {ks : KeySel} {r : Registers} {k : Block} (h : Supplies ks r k) (b : Block) :
    Supplies ks (r.putState b) k := by
  cases ks <;> exact h

section Complete

variable {s : State} (hst : s.regs.stateWv = 0b1111#4)

include hst

/-- A stage command completes from any contents of a fully written STATE. -/
theorem exec_stage_putState {i : Instr} {f : Block → Block} (hi : commandResult i = stageResult f) (b : Block) :
    exec i (s.putState b) = .next (s.putState (f b)) :=
  exec_of_result_ok <| by rw [hi]; exact stageResult_of_full (r := s.regs.putState b) hst f

/-- So does a keyed command whose key operand can be read. -/
theorem exec_keyed_putState {ks : KeySel} {k : Block} (hk : Supplies ks s.regs k) {i : Instr}
    {f : Block → Block → Block} (hi : commandResult i = keyedResult f ks) (b : Block) :
    exec i (s.putState b) = .next (s.putState (f b k)) :=
  exec_of_result_ok <| by rw [hi]; exact keyedResult_of_supplies (r := s.regs.putState b) hst (hk.putState b) f

/-- The stages with which both rounds begin. -/
theorem execAll_subBytes_shiftRows (is : List Instr) (b : Block) :
    execAll (.subBytes :: .shiftRows :: is) (s.putState b) = execAll is (s.putState (shiftRows (subBytes b))) :=
  calc execAll (.subBytes :: .shiftRows :: is) (s.putState b)
    _ = execAll (.shiftRows :: is) (s.putState (subBytes b)) := execAll_cons_of_next (exec_stage_putState hst rfl b)
    _ = execAll is (s.putState (shiftRows (subBytes b))) := execAll_cons_of_next (exec_stage_putState hst rfl _)

end Complete

/-- Settles O47: the three commands are one operation on STATE. -/
theorem stageCommandsComplete : Obligations.StageCommandsComplete := fun s hst =>
  ⟨exec_stage_putState hst rfl s.regs.state, exec_stage_putState hst rfl s.regs.state,
    exec_stage_putState hst rfl s.regs.state⟩

/-- Settles O55: each stage command leaves the state with its stage of STATE, where the next one completes too, and the
stages make up the round. -/
theorem roundsAreStageSequences : Obligations.RoundsAreStageSequences := by
  intro s ks k hst hk
  obtain ⟨b, hs⟩ : ∃ b, s = s.putState b := ⟨s.regs.state, rfl⟩
  rw [hs]
  constructor
  · calc execAll [.subBytes, .shiftRows, .mixColumns, .addRoundKey ks] (s.putState b)
      _ = execAll [.mixColumns, .addRoundKey ks] (s.putState (shiftRows (subBytes b))) :=
        execAll_subBytes_shiftRows hst _ b
      _ = execAll [.addRoundKey ks] (s.putState (mixColumns (shiftRows (subBytes b)))) :=
        execAll_cons_of_next (exec_stage_putState hst rfl _)
      _ = .next (s.putState (fullRound b k)) := execAll_cons_of_next (exec_keyed_putState hst hk rfl _)
      _ = exec (.fullRound ks) (s.putState b) := (exec_keyed_putState hst hk rfl b).symm
  · calc execAll [.subBytes, .shiftRows, .addRoundKey ks] (s.putState b)
      _ = execAll [.addRoundKey ks] (s.putState (shiftRows (subBytes b))) := execAll_subBytes_shiftRows hst _ b
      _ = .next (s.putState (finalRound b k)) := execAll_cons_of_next (exec_keyed_putState hst hk rfl _)
      _ = exec (.finalRound ks) (s.putState b) := (exec_keyed_putState hst hk rfl b).symm

end Sys2Proof.Machine

/-! The cipher and its commands (43_encryption_engine.md R98 to R100, R102): the engine's two datapaths compute the
cipher function, ENCRYPT's by expanding the key as it goes and ENCRYPT_SCHED's by reading the schedule of the key. -/

namespace Sys2Proof.Machine

/-- Settles O42: the cipher is defined as these rounds. -/
theorem encryptIsTenRounds : Obligations.EncryptIsTenRounds := fun _ _ => rfl

/-- The `m` full rounds that follow round `n` of the cipher under `k`. -/
def fullRoundsFrom (k : Block) (n m : Nat) (b : Block) : Block :=
  (List.range' (n + 1) m).foldl (fun st i => fullRound st (keyIter k i)) b

theorem fullRoundsFrom_succ (k : Block) (n m : Nat) (b : Block) :
    fullRoundsFrom k n (m + 1) b = fullRoundsFrom k (n + 1) m (fullRound b (keyIter k (n + 1))) := rfl

theorem encryptBlock_eq_fullRoundsFrom (p k : Block) :
    encryptBlock p k = finalRound (fullRoundsFrom k 0 9 (addRoundKey p k)) (keyIter k 10) := rfl

/-! ENCRYPT (R99). -/

/-- One turn of ENCRYPT's loop. -/
def encryptTurn (sr : Block × Block) (i : Nat) : Block × Block := (fullRound sr.1 (keyNext sr.2 i), keyNext sr.2 i)

theorem encryptRounds_eq_foldl (p k : Block) :
    encryptRounds p k = (List.range' 1 9).foldl encryptTurn (addRoundKey p k, k) := rfl

/-- The loop, entered with round key `n`, runs the cipher's full rounds and ends with the last of their keys. -/
theorem foldl_encryptTurn (k : Block) (n m : Nat) (b : Block) :
    (List.range' (n + 1) m).foldl encryptTurn (b, keyIter k n) = (fullRoundsFrom k n m b, keyIter k (n + m)) := by
  induction m generalizing n b with
  | zero => rfl
  | succ m ih =>
    have hturn : encryptTurn (b, keyIter k n) (n + 1) = (fullRound b (keyIter k (n + 1)), keyIter k (n + 1)) := rfl
    rw [List.range'_succ, List.foldl_cons, hturn, ih, fullRoundsFrom_succ, Nat.succ_add_eq_add_succ]

theorem encryptFresh_eq (p k : Block) : encryptFresh p k = (encryptBlock p k, keyIter k 10) := by
  have hrounds : encryptRounds p k = (fullRoundsFrom k 0 9 (addRoundKey p k), keyIter k 9) :=
    (encryptRounds_eq_foldl p k).trans (foldl_encryptTurn k 0 9 _)
  rw [encryptFresh, hrounds, encryptBlock_eq_fullRoundsFrom]
  rfl

theorem withState_of_full {α : Type} {r : Registers} (h : r.stateWv = 0b1111#4) (k : Block → Except FaultCode α) :
    withState r k = k r.state := by
  rw [withState, Registers.stateFull_iff.mpr h, require_true]

theorem withSched_of_valid {α : Type} {r : Registers} (h : r.schedValid = true)
    (k : Vector Block 10 → Except FaultCode α) : withSched r k = k r.sched := by
  rw [withSched, h, require_true]

theorem exec_encrypt {s : State} (hst : s.regs.stateWv = 0b1111#4) (hkey : s.regs.keyWv = 0b1111#4) :
    exec .encrypt s = .next ((s.putState (encryptBlock s.regs.state s.regs.key)).expanderAt s.regs.key 10) := by
  apply exec_of_result_ok
  simp only [commandResult, withState_of_full hst, withKey_of_full hkey, encryptFresh_eq]
  rfl

/-- Settles O49: ENCRYPT's loop is the cipher's rounds, and ends at position 10 of the key's schedule. -/
theorem encryptCompletes : Obligations.EncryptCompletes := fun _ => exec_encrypt

/-! ENCRYPT_SCHED (R100, R102). -/

theorem exec_encryptSched {s : State} (hst : s.regs.stateWv = 0b1111#4) (hkey : s.regs.keyWv = 0b1111#4)
    (hsched : s.regs.schedValid = true) :
    exec .encryptSched s = .next (s.putState (encryptWith s.regs.state s.regs.key s.regs.sched)) := by
  apply exec_of_result_ok
  simp only [commandResult, withState_of_full hst, withKey_of_full hkey, withSched_of_valid hsched]

/-- Settles O50, from ENCRYPT_SCHED's next state. -/
theorem encryptSchedCompletes : Obligations.EncryptSchedCompletes := fun _ => exec_encryptSched

/-- With the schedule of the key, the rounds read the keys that the cipher's rounds use: entry `i` is round key
`i + 1`. -/
theorem encryptWith_eq_encryptBlock {p k : Block} {sched : Vector Block 10}
    (h : ∀ i : Fin 10, sched[i] = keyIter k (i.val + 1)) : encryptWith p k sched = encryptBlock p k := by
  have hnumbers : fullRoundNumbers = fullRoundIndices.map (·.val + 1) := rfl
  have hlast : sched[9] = keyIter k 10 := h 9
  simp only [encryptWith, encryptBlock, h, hlast, hnumbers, List.foldl_map]

/-- Settles O58: by the invariants a valid SCHED holds the round keys of a fully written KEY. -/
theorem encryptSchedAgreesWithEncrypt : Obligations.EncryptSchedAgreesWithEncrypt := by
  intro s hinv hsched hst
  obtain ⟨hkey, hentries⟩ := hinv.sched_of_schedValid hsched
  have hcipher := encryptWith_eq_encryptBlock (p := s.regs.state) hentries
  exact ⟨_, _, exec_encryptSched hst hkey hsched, exec_encrypt hst hkey, hcipher, hcipher.symm⟩

end Sys2Proof.Machine

/-! Runs of the host's transactions (20_memory.md R48): what one transaction adds to a run. -/

namespace Sys2Proof.Machine

section Cons

variable {x : Transaction} {xs : List Transaction} {s t : State}

/-- A transaction that returns nothing: the rest runs from the state it leaves. -/
theorem run_cons (h : transact x (s.take xs) = .next (t.take xs)) : run (x :: xs) s = run xs (t.take []) := by
  have hstep : step (s.withPending (x :: xs)) = .next (t.take xs) := h
  simp only [run, List.length_cons, Host.Core.run, core, hstep]
  rfl

/-- The words returned do not depend on what was pending or returned before the run. -/
theorem runResponses_take (ts ys : List Transaction) (s : State) : runResponses ts (s.take ys) = runResponses ts s := by
  cases ts <;> rfl

theorem runResponses_cons (h : transact x (s.take xs) = .next t) (ht : t.pending = xs) :
    runResponses (x :: xs) s = t.response.toList ++ runResponses xs t := by
  have hstep : step (s.withPending (x :: xs)) = .next t := h
  subst ht
  simp only [runResponses, List.length_cons, responses, hstep]
  rfl

/-- A transaction that returns nothing adds no word. -/
theorem runResponses_cons_silent (h : transact x (s.take xs) = .next (t.take xs)) :
    runResponses (x :: xs) s = runResponses xs t := by
  rw [runResponses_cons h rfl, runResponses_take]
  rfl

theorem runResponses_respond (ts : List Transaction) (s : State) (w : Word32) :
    runResponses ts (s.respond w) = runResponses ts s := by
  cases ts <;> rfl

end Cons

section Ready

variable {s : State} (h : s.Ready)
include h

theorem transact_wr (reg : Reg) (v : Word32) (xs : List Transaction) :
    transact (wr reg v) (s.take xs) = writeReg reg reg.offset v (s.take xs) := by
  have ht : (s.take xs).Ready := h
  exact hostWrite_offset ht reg v

/-- A command does not look at the host's queue. -/
theorem transact_cmd {i : Instr} {t : State} (hi : exec i s = .next t) (xs : List Transaction) :
    transact (cmd i) (s.take xs) = .next (t.take xs) := by
  have hexec : transact (cmd i) (s.take xs) = exec i (s.take xs) :=
    (transact_wr h .cmd _ xs).trans (execIsCommandOfItsWord i _)
  rw [hexec]
  rcases exec_eq_next hi with ⟨r, hr, rfl⟩ | ⟨code, hcode, rfl⟩
  · exact exec_of_result_ok hr
  · rw [exec_of_result_error (s := s.take xs) h.1 hcode, State.raise_eq_afterFault h.1]
    rfl

theorem run_cmd_cons {i : Instr} {t : State} (hi : exec i s = .next t) (xs : List Transaction) :
    run (cmd i :: xs) s = run xs (t.take []) := run_cons (transact_cmd h hi xs)

theorem runResponses_cmd_cons {i : Instr} {t : State} (hi : exec i s = .next t) (xs : List Transaction) :
    runResponses (cmd i :: xs) s = runResponses xs t := runResponses_cons_silent (transact_cmd h hi xs)

theorem runResponses_rd_cons {reg : Reg} {w : Word32} (hw : s.regs.readReg reg = .ok w) (xs : List Transaction) :
    runResponses (rd reg :: xs) s = w :: runResponses xs s := by
  have hread : transact (rd reg) (s.take xs) = .next ((s.take xs).respond w) :=
    hostRead_of_read_ok ((Registers.read_offset h.2 reg).trans hw)
  rw [runResponses_cons hread rfl, runResponses_respond, runResponses_take]
  rfl

end Ready

end Sys2Proof.Machine

/-! ENCRYPT_STEPS (43_encryption_engine.md R101): between its commands the expander stands at the round key last used,
and STATE at the cipher's round of the same number. -/

namespace Sys2Proof.Machine

/-- The state between the commands: `b` in STATE, the expander at position `n` of the schedule of `k`, the queue and the
response empty. -/
def State.atRound (s : State) (b k : Block) (n : Nat) : State := ((s.putState b).expanderAt k n).take []

theorem encryptSteps_eq :
    encryptSteps = cmd .kxInit :: cmd whiten ::
      ((List.replicate 9 [cmd .kxNext, cmd (.fullRound .rk)]).flatten ++ [cmd .kxNext, cmd (.finalRound .rk)]) := rfl

section Steps

variable {s : State} (h : s.Ready)
include h

theorem run_kxNext_atRound (b k : Block) {n : Nat} (hn : n < 10) (xs : List Transaction) :
    run (cmd .kxNext :: xs) (s.atRound b k n) = run xs (s.atRound b k (n + 1)) :=
  run_cmd_cons (s := s.atRound b k n) h (exec_kxNext_expanderAt ((s.putState b).take []) k hn) xs

variable (hst : s.regs.stateWv = 0b1111#4)
include hst

/-- A command with the expander's round key as its operand. -/
theorem run_keyed_rk_atRound {i : Instr} {f : Block → Block → Block} (hi : commandResult i = keyedResult f .rk)
    (b k : Block) (n : Nat) (xs : List Transaction) :
    run (cmd i :: xs) (s.atRound b k n) = run xs (s.atRound (f b (keyIter k n)) k n) := by
  have hrk : Supplies .rk (s.expanderAt k n).regs (keyIter k n) := ⟨rfl, rfl⟩
  exact run_cmd_cons (s := s.atRound b k n) h
    (exec_keyed_putState (s := (s.expanderAt k n).take []) hst hrk hi b) xs

/-- Each pair of KX_NEXT and FULL_ROUND is one full round of the cipher. -/
theorem run_fullRounds_atRound (b k : Block) {n m : Nat} (hn : n + m ≤ 10) (xs : List Transaction) :
    run ((List.replicate m [cmd .kxNext, cmd (.fullRound .rk)]).flatten ++ xs) (s.atRound b k n) =
      run xs (s.atRound (fullRoundsFrom k n m b) k (n + m)) := by
  induction m generalizing n b with
  | zero => rfl
  | succ m ih =>
    rw [List.replicate_succ, List.flatten_cons, List.append_assoc, List.cons_append, List.cons_append, List.nil_append,
      run_kxNext_atRound h b k (by omega), run_keyed_rk_atRound h hst rfl, ih _ (by omega), fullRoundsFrom_succ,
      Nat.succ_add_eq_add_succ]

variable (hkey : s.regs.keyWv = 0b1111#4)
include hkey

theorem run_kxInit_whiten (xs : List Transaction) :
    run (cmd .kxInit :: cmd whiten :: xs) s =
      run xs (s.atRound (addRoundKey s.regs.state s.regs.key) s.regs.key 0) := by
  have hsupply : Supplies .key (s.expanderAt s.regs.key 0).regs s.regs.key := ⟨hkey, rfl⟩
  have hwhiten : exec whiten (s.expanderAt s.regs.key 0) =
      .next ((s.expanderAt s.regs.key 0).putState (addRoundKey s.regs.state s.regs.key)) :=
    exec_keyed_putState (s := s.expanderAt s.regs.key 0) hst hsupply rfl s.regs.state
  calc run (cmd .kxInit :: cmd whiten :: xs) s
    _ = run (cmd whiten :: xs) ((s.expanderAt s.regs.key 0).take []) :=
      run_cmd_cons h (exec_kxInit_eq_expanderAt hkey) _
    _ = run (cmd whiten :: xs) (s.expanderAt s.regs.key 0) := rfl
    _ = run xs (s.atRound (addRoundKey s.regs.state s.regs.key) s.regs.key 0) :=
      run_cmd_cons (s := s.expanderAt s.regs.key 0) h hwhiten xs

theorem run_encryptSteps :
    run encryptSteps s = .next (s.atRound (encryptBlock s.regs.state s.regs.key) s.regs.key 10) := by
  rw [encryptSteps_eq, run_kxInit_whiten h hst hkey, run_fullRounds_atRound h hst _ _ (by decide), Nat.zero_add,
    run_kxNext_atRound h _ _ (by decide), run_keyed_rk_atRound h hst rfl, encryptBlock_eq_fullRoundsFrom]
  rfl

theorem run_encrypt :
    run [cmd .encrypt] s = .next (s.atRound (encryptBlock s.regs.state s.regs.key) s.regs.key 10) :=
  run_cmd_cons h (exec_encrypt hst hkey) []

end Steps

/-- Settles O57: both runs end at round 10. -/
theorem encryptStepsEqualEncrypt : Obligations.EncryptStepsEqualEncrypt := by
  refine ⟨rfl, fun s h hkey hst => ⟨?_, run_encrypt h hst hkey⟩⟩
  rw [run_encryptSteps h hst hkey, run_encrypt h hst hkey]

end Sys2Proof.Machine

/-! The bulk procedure (43_encryption_engine.md R103, R104): the four writes of a Block, the four reads, and what one
Block adds to the words returned. -/

namespace Sys2Proof.Machine

/-- KEY after `LDKEY`: all of it is written, and what depends on KEY is dropped (20_memory.md R37). -/
def Registers.loadKey (r : Registers) (b : Block) : Registers :=
  { r with key := b, keyWv := 0b1111#4, rkValid := false, kxPos := 0, schedValid := false }

/-- STATE after `LDSTATE`: all of it is written (20_memory.md R37). -/
def Registers.loadState (r : Registers) (b : Block) : Registers := { r with state := b, stateWv := 0b1111#4 }

/-- Whatever words were written before, the four columns make up the mask 1111. -/
theorem or_wordBits (wv : BitVec 4) : wv ||| wordBit 0 ||| wordBit 1 ||| wordBit 2 ||| wordBit 3 = 0b1111#4 := by
  revert wv
  decide

theorem foldl_writeKey (r : Registers) (b : Block) :
    columns.foldl (fun r c => r.writeKey c (b.col c).pack) r = r.loadKey b := by
  simp only [columns, List.foldl_cons, List.foldl_nil, Registers.writeKey, Column.unpack_pack, or_wordBits]
  rfl

theorem foldl_writeState (r : Registers) (b : Block) :
    columns.foldl (fun r c => r.writeState c (b.col c).pack) r = r.loadState b := by
  simp only [columns, List.foldl_cons, List.foldl_nil, Registers.writeState, Column.unpack_pack, or_wordBits]
  rfl

/-- Writes of the words of a Block register, `put` being what one of them does to the registers. -/
theorem runResponses_writes {reg : Fin 4 → Reg} {put : Registers → Fin 4 → Word32 → Registers}
    (hwrite : ∀ c off v s, writeReg (reg c) off v s = .next (s.setRegs (put s.regs c v)))
    (hput : ∀ r c v, (put r c v).fault = r.fault ∧ (put r c v).busy = r.busy) {s : State} (h : s.Ready)
    (cs : List (Fin 4)) (w : Fin 4 → Word32) (xs : List Transaction) :
    runResponses (cs.map (fun c => wr (reg c) (w c)) ++ xs) s =
      runResponses xs (s.setRegs (cs.foldl (fun r c => put r c (w c)) s.regs)) := by
  induction cs generalizing s with
  | nil => rfl
  | cons c cs ih =>
    obtain ⟨hfault, hbusy⟩ := hput s.regs c (w c)
    have hready : (s.setRegs (put s.regs c (w c))).Ready := ⟨hfault.trans h.1, hbusy.trans h.2⟩
    rw [List.map_cons, List.cons_append,
      runResponses_cons_silent (t := s.setRegs (put s.regs c (w c))) ((transact_wr h _ _ _).trans (hwrite _ _ _ _)),
      ih hready]
    rfl

section Ready

variable {s : State} (h : s.Ready)
include h

theorem runResponses_ldKey (b : Block) (xs : List Transaction) :
    runResponses (ldKey b ++ xs) s = runResponses xs (s.setRegs (s.regs.loadKey b)) := by
  rw [← foldl_writeKey]
  exact runResponses_writes (reg := .key) (put := .writeKey) (fun _ _ _ _ => rfl)
    (fun _ _ _ => ⟨rfl, rfl⟩) h columns _ xs

theorem runResponses_ldState (b : Block) (xs : List Transaction) :
    runResponses (ldState b ++ xs) s = runResponses xs (s.setRegs (s.regs.loadState b)) := by
  rw [← foldl_writeState]
  exact runResponses_writes (reg := .state) (put := .writeState) (fun _ _ _ _ => rfl)
    (fun _ _ _ => ⟨rfl, rfl⟩) h columns _ xs

/-- Reads of words of a STATE that is fully written. -/
theorem runResponses_reads (hst : s.regs.stateWv = 0b1111#4) (cs : List (Fin 4)) (xs : List Transaction) :
    runResponses (cs.map (fun c => rd (.state c)) ++ xs) s =
      cs.map (fun c => (s.regs.state.col c).pack) ++ runResponses xs s := by
  have hvalid (c : Fin 4) : s.regs.stateWv.getLsbD c.val = true := by
    rw [hst]
    revert c
    decide
  induction cs with
  | nil => rfl
  | cons c cs ih =>
    have hread : s.regs.readReg (.state c) = .ok (s.regs.state.col c).pack := require_eq_ok.mpr ⟨hvalid c, rfl⟩
    rw [List.map_cons, List.cons_append, runResponses_rd_cons h hread, ih, List.map_cons, List.cons_append]

theorem runResponses_rdState (hst : s.regs.stateWv = 0b1111#4) (xs : List Transaction) :
    runResponses (rdState ++ xs) s = s.regs.state.words ++ runResponses xs s :=
  runResponses_reads h hst columns xs

end Ready

/-- KEY holds `k` and SCHED its schedule: what the bulk procedure sets up once and no Block changes. -/
structure Registers.Scheduled (r : Registers) (k : Block) : Prop where
  key : r.key = k
  keyWv : r.keyWv = 0b1111#4
  schedValid : r.schedValid = true
  sched : r.sched = keyExpand k

theorem Registers.Scheduled.encryptWith_eq {r : Registers} {k : Block} (h : r.Scheduled k) (p : Block) :
    encryptWith p r.key r.sched = encryptBlock p k := by
  rw [h.key, h.sched]
  exact encryptWith_eq_encryptBlock (getElem_keyExpand k)

/-- One Block returns its encryption, which stays in STATE; nothing else is changed. -/
theorem runResponses_hostBulkBlock {s : State} (h : s.Ready) {k : Block} (hk : s.regs.Scheduled k) (p : Block)
    (xs : List Transaction) :
    runResponses (hostBulkBlock p ++ xs) s =
      (encryptBlock p k).words ++ runResponses xs (s.setRegs (s.regs.loadState (encryptBlock p k))) := by
  have hexec : exec .encryptSched (s.setRegs (s.regs.loadState p)) =
      .next (s.setRegs (s.regs.loadState (encryptBlock p k))) := by
    rw [← hk.encryptWith_eq]
    exact exec_encryptSched (s := s.setRegs (s.regs.loadState p)) rfl hk.keyWv hk.schedValid
  calc runResponses (hostBulkBlock p ++ xs) s
    _ = runResponses (ldState p ++ cmd .encryptSched :: (rdState ++ xs)) s := rfl
    _ = runResponses (cmd .encryptSched :: (rdState ++ xs)) (s.setRegs (s.regs.loadState p)) :=
      runResponses_ldState h p _
    _ = runResponses (rdState ++ xs) (s.setRegs (s.regs.loadState (encryptBlock p k))) :=
      runResponses_cmd_cons (s := s.setRegs (s.regs.loadState p)) h hexec _
    _ = (encryptBlock p k).words ++ runResponses xs (s.setRegs (s.regs.loadState (encryptBlock p k))) :=
      runResponses_rdState (s := s.setRegs (s.regs.loadState (encryptBlock p k))) h rfl xs

theorem Registers.Scheduled.loadState {r : Registers} {k : Block} (h : r.Scheduled k) (b : Block) :
    (r.loadState b).Scheduled k := { h with }

theorem runResponses_hostBulkBlocks {s : State} (h : s.Ready) {k : Block} (hk : s.regs.Scheduled k)
    (ps : List Block) :
    runResponses (ps.map hostBulkBlock).flatten s = (ps.map fun p => (encryptBlock p k).words).flatten := by
  induction ps generalizing s with
  | nil => rfl
  | cons p ps ih =>
    have hready : (s.setRegs (s.regs.loadState (encryptBlock p k))).Ready := h
    rw [List.map_cons, List.flatten_cons, runResponses_hostBulkBlock h hk, ih hready (hk.loadState _), List.map_cons,
      List.flatten_cons]

/-- Settles O59: LDKEY and KX_EXPAND set up the key and its schedule, with which each Block in turn is encrypted. -/
theorem hostBulkEncryptsEachBlock : Obligations.HostBulkEncryptsEachBlock := by
  intro s k ps h
  have hkey : (s.setRegs (s.regs.loadKey k)).Ready := h
  have hsched : ((s.regs.loadKey k).putSched (keyExpand k)).Scheduled k := ⟨rfl, rfl, rfl, rfl⟩
  calc runResponses (hostBulk k ps) s
    _ = runResponses (ldKey k ++ cmd .kxExpand :: (ps.map hostBulkBlock).flatten) s := rfl
    _ = runResponses (cmd .kxExpand :: (ps.map hostBulkBlock).flatten) (s.setRegs (s.regs.loadKey k)) :=
      runResponses_ldKey h k _
    _ = runResponses (ps.map hostBulkBlock).flatten (s.setRegs ((s.regs.loadKey k).putSched (keyExpand k))) :=
      runResponses_cmd_cons hkey (exec_kxExpand rfl) _
    _ = (ps.map fun p => (encryptBlock p k).words).flatten :=
      runResponses_hostBulkBlocks (s := s.setRegs ((s.regs.loadKey k).putSched (keyExpand k))) h hsched ps

end Sys2Proof.Machine

/-! Faults (60_exceptions.md R105 to R110): how one is taken and left, what a busy core refuses (70_reset_and_hazards.md
R123), and the commands whose operands are missing. -/

namespace Sys2Proof.Machine

/-- Settles O15, by the two cases of a raise. -/
theorem faultEntryRecordsOnce : Obligations.FaultEntryRecordsOnce := fun s code info =>
  ⟨fun hf => State.raise_eq_afterFault hf code info, s.raise_of_fault code info⟩

/-! Precision (R106, R107): whatever takes a fault does nothing else. -/

/-- From registers `r` to registers `q` either FAULT is kept, or a fault is recorded and no other register changes. -/
def FaultPrecise (r q : Registers) : Prop :=
  q.fault = r.fault ∨ ∃ code info, code ≠ .none ∧ q = r.recordFault code info

theorem State.raise_faultPrecise (s : State) {code : FaultCode} (hcode : code ≠ .none) (info : Word32) :
    FaultPrecise s.regs (s.raise code info).regs := by
  rcases s.raise_eq code info with ⟨-, heq⟩ | ⟨-, heq⟩ <;> rw [heq]
  · exact .inl rfl
  · exact .inr ⟨code, info, hcode, rfl⟩

theorem exec_faultPrecise {i : Instr} {s t : State} (h : exec i s = .next t) : FaultPrecise s.regs t.regs := by
  rcases exec_eq_next h with ⟨q, hq, rfl⟩ | ⟨code, hcode, rfl⟩
  · obtain ⟨hfault, -, -⟩ := (commandResult_frame hq).record
    exact .inl hfault
  · exact s.raise_faultPrecise (by rintro rfl; exact commandResult_ne_error_none _ _ hcode) _

theorem command_faultPrecise {v : Word32} {s t : State} (h : command v s = .next t) : FaultPrecise s.regs t.regs := by
  rcases command_eq_next h with ⟨i, -, hi⟩ | ⟨e, -, rfl⟩
  · exact exec_faultPrecise hi
  · exact s.raise_faultPrecise (rejectCode_ne_none e) v

theorem hostRead_faultPrecise {off : BitVec 8} {size : Nat} {s t : State} (h : hostRead off size s = .next t) :
    FaultPrecise s.regs t.regs := by
  rcases hostRead_eq_next h with ⟨v, -, rfl⟩ | ⟨code, hcode, rfl⟩
  · exact .inl rfl
  · exact s.raise_faultPrecise (by rintro rfl; exact read_ne_error_none _ _ _ hcode) _

theorem hostWrite_faultPrecise {off : BitVec 8} {size : Nat} {v : Word32} {s t : State}
    (h : hostWrite off size v s = .next t) : FaultPrecise s.regs t.regs := by
  rcases hostWrite_eq_next h with ⟨-, rfl⟩ | ⟨-, hcmd | ⟨c, rfl⟩ | ⟨c, rfl⟩ | ⟨code, hcode, rfl⟩⟩
  · exact .inl rfl
  · exact command_faultPrecise hcmd
  · exact .inl rfl
  · exact .inl rfl
  · exact s.raise_faultPrecise hcode _

/-- Reset ends with FAULT = 0, so from FAULT = 0 it takes no fault. -/
theorem transact_faultPrecise {x : Transaction} {s t : State} (hf : s.regs.fault = false)
    (h : transact x s = .next t) : FaultPrecise s.regs t.regs := by
  cases x with
  | read off size => exact hostRead_faultPrecise h
  | write off size v => exact hostWrite_faultPrecise h
  | reset => exact Host.Outcome.next.inj h ▸ .inl hf.symm

theorem step_faultPrecise {s t : State} (hf : s.regs.fault = false) (h : step s = .next t) :
    FaultPrecise s.regs t.regs := by
  cases hp : s.pending with
  | nil =>
    rw [step_of_idle hp] at h
    exact Host.Outcome.next.inj h ▸ .inl rfl
  | cons x rest =>
    rw [step_of_pending hp] at h
    exact transact_faultPrecise (s := s.take rest) hf h

/-- Settles O16: a step that does not keep FAULT records a fault and nothing else. -/
theorem faultsArePrecise : Obligations.FaultsArePrecise := by
  intro s t h hf hft
  rcases step_faultPrecise hf h with hkept | ⟨code, info, hcode, hrec⟩
  · rw [hkept, hf] at hft
    cases hft
  · rw [hrec]
    exact ⟨rfl, hcode⟩

/-! The way out of a fault (R109, R110). -/

theorem hostRead_regs_of_fault {off : BitVec 8} {size : Nat} {s t : State} (hf : s.regs.fault = true)
    (h : hostRead off size s = .next t) : t.regs = s.regs := by
  rcases hostRead_eq_next h with ⟨v, -, rfl⟩ | ⟨code, -, rfl⟩
  · rfl
  · rw [State.respondFree_regs, s.raise_of_fault _ _ hf]

theorem hostWrite_regs_of_fault {off : BitVec 8} {size : Nat} {v : Word32} {s t : State} (hf : s.regs.fault = true)
    (h : hostWrite off size v s = .next t) : t.regs = s.regs := by
  rw [hostWrite_of_fault hf] at h
  exact Host.Outcome.next.inj h ▸ rfl

/-- Settles O18, by the cases of the queue and of the transaction taken. -/
theorem onlyResetLeavesTheFault : Obligations.OnlyResetLeavesTheFault := by
  intro s t h hf
  cases hp : s.pending with
  | nil =>
    rw [step_of_idle hp] at h
    exact Host.Outcome.next.inj h ▸ .inl rfl
  | cons x rest =>
    rw [step_of_pending hp] at h
    cases x with
    | read off size => exact .inl (hostRead_regs_of_fault (s := s.take rest) hf h)
    | write off size v => exact .inl (hostWrite_regs_of_fault (s := s.take rest) hf h)
    | reset => exact .inr ⟨rest, rfl, Host.Outcome.next.inj h ▸ rfl⟩

/-! Accesses of a busy core (R108; 70_reset_and_hazards.md R123). -/

/-- A 32-bit read of STATUS passes the checks of every access, BUSY or not. -/
theorem access_status {α : Type} (r : Registers) (k : Reg → Except FaultCode α) :
    access r true Reg.status.offset 4 k = k .status := by
  simp [access]

theorem access_busy {α : Type} {r : Registers} (hb : r.busy = true) {isRead : Bool} {off : BitVec 8} {size : Nat}
    (h : isRead = true → size = 4 → off ≠ Reg.status.offset) (k : Reg → Except FaultCode α) :
    access r isRead off size k = .error .busyViolation := by
  have hcond : (!r.busy || (isRead && size == 4 && regAt off == some .status)) = false := by
    simpa [hb, regAt_eq_some_iff] using h
  rw [access, hcond, require_false]

/-- With FAULT = 0 a write that addresses no word records its fault. -/
theorem hostWrite_of_target_error {s : State} (hf : s.regs.fault = false) {off : BitVec 8} {size : Nat}
    {code : FaultCode} (h : s.regs.writeTarget off size = .error code) (v : Word32) :
    hostWrite off size v s = .next (s.afterFault code (off.setWidth 32)) := by
  simp [hostWrite, hf, h, State.raise_eq_afterFault hf]

/-- Settles O25: STATUS is read past the BUSY check, and no other access gets past it. -/
theorem busyAccessesRaise : Obligations.BusyAccessesRaise := by
  intro s off size v hf hb
  refine ⟨hostRead_of_read_ok (access_status s.regs _), fun hother => ?_, ?_⟩
  · exact readRaises_of_read_error hf (access_busy hb (fun _ hsize => hother.resolve_left (not_not_intro hsize)) _)
  · have htarget : s.regs.writeTarget off size = .error .busyViolation := access_busy (isRead := false) hb nofun _
    exact hostWrite_of_target_error hf htarget v

/-! Commands whose operands are missing (R105, R108). -/

theorem withKey_of_unwritten {α : Type} {r : Registers} (h : r.keyWv ≠ 0b1111#4) (k : Block → Except FaultCode α) :
    withKey r k = .error .unwrittenOperand := by
  rw [withKey, Registers.keyFull, beq_eq_false_iff_ne.mpr h, require_false]

theorem withState_of_unwritten {α : Type} {r : Registers} (h : r.stateWv ≠ 0b1111#4)
    (k : Block → Except FaultCode α) : withState r k = .error .unwrittenOperand := by
  rw [withState, Registers.stateFull, beq_eq_false_iff_ne.mpr h, require_false]

theorem withRk_of_invalid {α : Type} {r : Registers} (h : r.rkValid = false) (k : Block → Except FaultCode α) :
    withRk r k = .error .unwrittenOperand := by
  rw [withRk, h, require_false]

theorem withSched_of_invalid {α : Type} {r : Registers} (h : r.schedValid = false)
    (k : Vector Block 10 → Except FaultCode α) : withSched r k = .error .noSchedule := by
  rw [withSched, h, require_false]

/-- An unwritten operand that is read after STATE is reported alike whether or not STATE is written. -/
theorem withState_of_forall_unwritten {α : Type} {k : Block → Except FaultCode α} (r : Registers)
    (h : ∀ b, k b = .error .unwrittenOperand) : withState r k = .error .unwrittenOperand := by
  rw [withState, h]
  cases r.stateFull <;> rfl

theorem withKeySrc_of_unwritten {α : Type} {ks : KeySel} {r : Registers}
    (h : (ks = .key ∧ r.keyWv ≠ 0b1111#4) ∨ (ks = .rk ∧ r.rkValid = false)) (k : Block → Except FaultCode α) :
    withKeySrc ks r k = .error .unwrittenOperand := by
  rcases h with ⟨rfl, hkey⟩ | ⟨rfl, hrk⟩
  · exact withKey_of_unwritten hkey k
  · exact withRk_of_invalid hrk k

theorem KeySel.wellFormed_sched_iff {idx : BitVec 4} :
    (KeySel.sched idx).wellFormed = true ↔ ∃ i, schedIndex idx = some i := by
  simp only [schedIndex_eq_some, KeySel.wellFormed, Bool.and_eq_true, decide_eq_true_eq]
  constructor
  · rintro ⟨hlo, hhi⟩
    exact ⟨⟨idx.toNat - 1, by omega⟩, by simp only; omega⟩
  · rintro ⟨i, hi⟩
    omega

theorem withKeySrc_of_noSchedule {α : Type} {idx : BitVec 4} {r : Registers}
    (hwf : (KeySel.sched idx).wellFormed = true) (h : r.schedValid = false) (k : Block → Except FaultCode α) :
    withKeySrc (.sched idx) r k = .error .noSchedule := by
  obtain ⟨i, hi⟩ := KeySel.wellFormed_sched_iff.mp hwf
  simp only [withKeySrc, hi, withSched_of_invalid h]

theorem keyedResult_of_wellFormed {ks : KeySel} (h : ks.wellFormed = true) (f : Block → Block → Block)
    (r : Registers) :
    keyedResult f ks r = withState r fun st => withKeySrc ks r fun k => .ok (r.putState (f st k)) := by
  rw [keyedResult, h, require_true]

theorem keyedResult_of_unwritten {ks : KeySel} {r : Registers} (hwf : ks.wellFormed = true)
    (h : r.stateWv ≠ 0b1111#4 ∨ (ks = .key ∧ r.keyWv ≠ 0b1111#4) ∨ (ks = .rk ∧ r.rkValid = false))
    (f : Block → Block → Block) : keyedResult f ks r = .error .unwrittenOperand := by
  rw [keyedResult_of_wellFormed hwf]
  rcases h with hst | hsrc
  · exact withState_of_unwritten hst _
  · exact withState_of_forall_unwritten r fun _ => withKeySrc_of_unwritten hsrc _

theorem keyedResult_of_noSchedule {idx : BitVec 4} {r : Registers} (hwf : (KeySel.sched idx).wellFormed = true)
    (hst : r.stateWv = 0b1111#4) (h : r.schedValid = false) (f : Block → Block → Block) :
    keyedResult f (.sched idx) r = .error .noSchedule := by
  rw [keyedResult_of_wellFormed hwf, withState_of_full hst, withKeySrc_of_noSchedule hwf h]

section Raises

variable {s : State} (hf : s.regs.fault = false)
include hf

/-- Commands that all meet the fault `code` each record it under their own word. -/
theorem exec_of_forall_result_error {is : List Instr} {code : FaultCode}
    (h : ∀ i ∈ is, commandResult i s.regs = .error code) :
    ∀ i ∈ is, exec i s = .next (s.afterFault code (encode i)) := fun i hi => exec_of_result_error hf (h i hi)

/-- The three keyed commands meet the faults of their key operand alike. -/
theorem exec_keyed_of_result_error {ks : KeySel} {code : FaultCode}
    (h : ∀ f, keyedResult f ks s.regs = .error code) :
    ∀ i ∈ [Instr.addRoundKey ks, .fullRound ks, .finalRound ks],
      exec i s = .next (s.afterFault code (encode i)) :=
  exec_of_forall_result_error hf <| by simp [commandResult, h]

end Raises

/-- Settles O51, operand by operand; ENCRYPT and ENCRYPT_SCHED read STATE before KEY, with one code for both. -/
theorem unwrittenOperandsRaise : Obligations.UnwrittenOperandsRaise := by
  intro s hf
  refine ⟨fun hkey => exec_of_forall_result_error hf ?_, fun hrk => ?_,
    fun hst => exec_of_forall_result_error hf ?_,
    fun ks hwf h => exec_keyed_of_result_error hf (keyedResult_of_unwritten hwf h)⟩
  · simp [commandResult, withKey_of_unwritten hkey, withState_of_forall_unwritten]
  · exact exec_of_result_error hf (by simp only [commandResult, withRk_of_invalid hrk])
  · simp [commandResult, stageResult, withState_of_unwritten hst]

/-- Settles O52: with STATE and KEY written, the check of SCHED is the first that fails. -/
theorem missingScheduleRaises : Obligations.MissingScheduleRaises := by
  intro s hf hsched hst
  refine ⟨fun hkey => exec_of_result_error hf ?_, fun idx hlo hhi => exec_keyed_of_result_error hf ?_⟩
  · simp only [commandResult, withState_of_full hst, withKey_of_full hkey, withSched_of_invalid hsched]
  · have hwf : (KeySel.sched idx).wellFormed = true := by simp [KeySel.wellFormed, hlo, hhi]
    exact keyedResult_of_noSchedule hwf hst hsched

end Sys2Proof.Machine

/-! States that differ only in contents no valid bit covers (10_state.md R21; 70_reset_and_hazards.md R120): a read and
a command look at a register only where its valid bits cover it, so what they do is the same in both states, and what
they write leaves states that again differ in such contents only. -/

namespace Sys2Proof.Machine

theorem require_congr {α : Type} {cond cond' : Bool} {code : FaultCode} {k k' : Except FaultCode α}
    (hcond : cond = cond') (hk : cond = true → k = k') : require cond code k = require cond' code k' := by
  subst hcond
  cases cond with
  | false => rfl
  | true => exact hk rfl

/-! The register operations. -/

theorem Registers.SameReadable.refl (r : Registers) : r.SameReadable r := by
  constructor <;> intros <;> rfl

theorem getLsbD_wordBit_of_ne : ∀ d c : Fin 4, d ≠ c → (wordBit c).getLsbD d.val = false := by decide

/-- Blocks that agree in the columns `wv` covers agree, once column `c` is written alike, in those columns and `c`. -/
theorem Block.setCol_agree {a b : Block} {wv : BitVec 4} (h : ∀ d : Fin 4, wv.getLsbD d.val = true → a.col d = b.col d)
    (c : Fin 4) (w : Column) (d : Fin 4) (hd : (wv ||| wordBit c).getLsbD d.val = true) :
    (a.setCol c w).col d = (b.setCol c w).col d := by
  by_cases hdc : d = c
  · subst hdc
    rw [Block.col_setCol_same, Block.col_setCol_same]
  · rw [BitVec.getLsbD_or, getLsbD_wordBit_of_ne d c hdc, Bool.or_false] at hd
    rw [Block.col_setCol_of_ne a w hdc, Block.col_setCol_of_ne b w hdc, h d hd]

section Registers

variable {r q : Registers} (h : r.SameReadable q)
include h

theorem Registers.SameReadable.writeKey (c : Fin 4) (v : Word32) : (r.writeKey c v).SameReadable (q.writeKey c v) :=
  { h with
    keyWv := congrArg (· ||| wordBit c) h.keyWv
    rkValid := rfl
    kxPos := rfl
    schedValid := rfl
    key := Block.setCol_agree h.key c _
    rk := nofun
    sched := nofun }

theorem Registers.SameReadable.writeState (c : Fin 4) (v : Word32) :
    (r.writeState c v).SameReadable (q.writeState c v) :=
  { h with
    stateWv := congrArg (· ||| wordBit c) h.stateWv
    state := Block.setCol_agree h.state c _ }

theorem Registers.SameReadable.putState (b : Block) : (r.putState b).SameReadable (q.putState b) :=
  { h with state := fun _ _ => rfl }

theorem Registers.SameReadable.putRk (b : Block) (p : BitVec 4) : (r.putRk b p).SameReadable (q.putRk b p) :=
  { h with rkValid := rfl, kxPos := rfl, rk := fun _ => rfl }

theorem Registers.SameReadable.putSched (ks : Vector Block 10) : (r.putSched ks).SameReadable (q.putSched ks) :=
  { h with schedValid := rfl, sched := fun _ => rfl }

theorem Registers.SameReadable.putResult (b : Byte) : (r.putResult b).SameReadable (q.putResult b) :=
  { h with resultValid := rfl, result := fun _ => rfl }

theorem Registers.SameReadable.recordFault (code : FaultCode) (info : Word32) :
    (r.recordFault code info).SameReadable (q.recordFault code info) :=
  { h with fault := rfl, fcode := rfl, finfo := rfl }

/-! What is read of the registers. -/

theorem Registers.SameReadable.keyFull : r.keyFull = q.keyFull := congrArg (· == 0b1111#4) h.keyWv

theorem Registers.SameReadable.stateFull : r.stateFull = q.stateFull := congrArg (· == 0b1111#4) h.stateWv

theorem Registers.SameReadable.key_of_full (hfull : r.keyFull = true) : r.key = q.key :=
  Block.ext_col fun c => h.key c <| by
    rw [Registers.keyFull_iff.mp hfull]
    decide +revert

theorem Registers.SameReadable.state_of_full (hfull : r.stateFull = true) : r.state = q.state :=
  Block.ext_col fun c => h.state c <| by
    rw [Registers.stateFull_iff.mp hfull]
    decide +revert

theorem Registers.SameReadable.status : r.status = q.status := by
  simp only [Registers.status, h.keyWv, h.stateWv, h.rkValid, h.kxPos, h.schedValid, h.resultValid, h.fault, h.fcode,
    h.busy]

/-- A word of the map reads alike: the contents under its valid bit, or the same fault. -/
theorem Registers.SameReadable.readReg (reg : Reg) : r.readReg reg = q.readReg reg := by
  cases reg with
  | cmd => rfl
  | status => exact congrArg Except.ok h.status
  | finfo => exact congrArg Except.ok h.finfo
  | result => exact require_congr h.resultValid fun hv => by rw [h.result hv]
  | key c => exact require_congr (by rw [h.keyWv]) fun hv => by rw [h.key c hv]
  | state c => exact require_congr (by rw [h.stateWv]) fun hv => by rw [h.state c hv]
  | rk c => exact require_congr h.rkValid fun hv => by rw [h.rk hv]
  | sched i c => exact require_congr h.schedValid fun hv => by rw [h.sched hv]

theorem Registers.SameReadable.read (off : BitVec 8) (size : Nat) : r.read off size = q.read off size := by
  simp only [Registers.read, access, h.busy, h.readReg]

theorem Registers.SameReadable.writeTarget (off : BitVec 8) (size : Nat) :
    r.writeTarget off size = q.writeTarget off size := by
  simp only [Registers.writeTarget, access, h.busy]

end Registers

/-! The commands. -/

/-- Two results of a command: the same fault, or registers that differ at most in contents no valid bit covers. -/
inductive SameResult : Except FaultCode Registers → Except FaultCode Registers → Prop where
  | error (code : FaultCode) : SameResult (.error code) (.error code)
  | ok {r q : Registers} : r.SameReadable q → SameResult (.ok r) (.ok q)

theorem SameResult.require {cond cond' : Bool} {code : FaultCode} {a b : Except FaultCode Registers}
    (hcond : cond = cond') (h : cond = true → SameResult a b) :
    SameResult (require cond code a) (require cond' code b) := by
  subst hcond
  cases cond with
  | false => exact .error code
  | true => exact h rfl

section Operands

variable {r q : Registers} (h : r.SameReadable q)
include h

/-! An operand is used only where its valid bits cover all of it, and there the two registers hold the same. -/

theorem SameResult.withKey {k k' : Block → Except FaultCode Registers} (hk : ∀ b, SameResult (k b) (k' b)) :
    SameResult (withKey r k) (withKey q k') :=
  .require h.keyFull fun hfull => h.key_of_full hfull ▸ hk r.key

theorem SameResult.withState {k k' : Block → Except FaultCode Registers} (hk : ∀ b, SameResult (k b) (k' b)) :
    SameResult (withState r k) (withState q k') :=
  .require h.stateFull fun hfull => h.state_of_full hfull ▸ hk r.state

theorem SameResult.withRk {k k' : Block → Except FaultCode Registers} (hk : ∀ b, SameResult (k b) (k' b)) :
    SameResult (withRk r k) (withRk q k') :=
  .require h.rkValid fun hv => h.rk hv ▸ hk r.rk

theorem SameResult.withSched {k k' : Vector Block 10 → Except FaultCode Registers}
    (hk : ∀ ks, SameResult (k ks) (k' ks)) : SameResult (withSched r k) (withSched q k') :=
  .require h.schedValid fun hv => h.sched hv ▸ hk r.sched

theorem SameResult.withKeySrc (ks : KeySel) {k k' : Block → Except FaultCode Registers}
    (hk : ∀ b, SameResult (k b) (k' b)) : SameResult (withKeySrc ks r k) (withKeySrc ks q k') := by
  cases ks with
  | key => exact .withKey h hk
  | rk => exact .withRk h hk
  | sched idx =>
    simp only [Machine.withKeySrc]
    split
    · exact .error _
    · exact .withSched h fun _ => hk _

theorem SameResult.stageResult (f : Block → Block) : SameResult (stageResult f r) (stageResult f q) :=
  .withState h fun _ => .ok (h.putState _)

theorem SameResult.keyedResult (f : Block → Block → Block) (ks : KeySel) :
    SameResult (keyedResult f ks r) (keyedResult f ks q) :=
  .require rfl fun _ => .withState h fun _ => .withKeySrc h ks fun _ => .ok (h.putState _)

/-- Every command has the same result, in what can be read of it. -/
theorem commandResult_sameResult (i : Instr) : SameResult (commandResult i r) (commandResult i q) := by
  cases i <;> dsimp only [commandResult]
  case nop => exact .ok h
  case gfMul | sbox => exact .ok (h.putResult _)
  case kxInit => exact .withKey h fun _ => .ok (h.putRk _ _)
  case kxNext =>
    rw [h.kxPos]
    exact .withRk h fun _ => .require rfl fun _ => .ok (h.putRk _ _)
  case kxExpand => exact .withKey h fun _ => .ok (h.putSched _)
  case subBytes | shiftRows | mixColumns => exact .stageResult h _
  case addRoundKey ks | fullRound ks | finalRound ks => exact .keyedResult h _ ks
  case encrypt => exact .withState h fun _ => .withKey h fun _ => .ok ((h.putState _).putRk _ _)
  case encryptSched =>
    exact .withState h fun _ => .withKey h fun _ => .withSched h fun _ => .ok (h.putState _)

end Operands

/-! The state updates. -/

section States

variable {s t : State} (h : s.SameReadable t)
include h

theorem State.SameReadable.setRegs {r q : Registers} (hr : r.SameReadable q) :
    (s.setRegs r).SameReadable (t.setRegs q) := { h with regs := hr }

theorem State.SameReadable.raise (code : FaultCode) (info : Word32) :
    (s.raise code info).SameReadable (t.raise code info) := by
  cases hf : s.regs.fault
  · rw [s.raise_of_not_fault code info hf, t.raise_of_not_fault code info (h.regs.fault ▸ hf)]
    exact { h with regs := h.regs.recordFault code info, everFaulted := rfl }
  · rw [s.raise_of_fault code info hf, t.raise_of_fault code info (h.regs.fault ▸ hf)]
    exact h

theorem State.SameReadable.respond (v : Word32) : (s.respond v).SameReadable (t.respond v) :=
  { h with response := rfl }

/-- The two states draw the same free word, for they number it alike (log entries 3 and 20). -/
theorem State.SameReadable.respondFree : s.respondFree.SameReadable t.respondFree :=
  { h with
    response := congrArg (fun n => some (Config.freeReadWord n)) h.freeDraws
    freeDraws := congrArg (· + 1) h.freeDraws }

theorem State.SameReadable.take (rest : List Transaction) : (s.take rest).SameReadable (t.take rest) :=
  { h with pending := rfl, response := rfl }

/-- The two states take the same contents from reset, for they number the reset alike (log entries 2 and 20). -/
theorem State.SameReadable.assertReset : s.assertReset.SameReadable t.assertReset :=
  { h with
    regs := by
      rw [State.assertReset_regs, State.assertReset_regs, h.freeDraws]
      exact .refl _
    freeDraws := congrArg (· + 1) h.freeDraws }

end States

/-! Transactions and the step. -/

/-- Two outcomes that are both next states, which differ at most in contents no valid bit covers. -/
def SameNext (o p : Host.Outcome State Fault Refusal) : Prop :=
  ∃ s t : State, o = .next s ∧ p = .next t ∧ s.SameReadable t

theorem State.SameReadable.next {s t : State} (h : s.SameReadable t) : SameNext (.next s) (.next t) :=
  ⟨s, t, rfl, rfl, h⟩

section Transactions

variable {s t : State} (h : s.SameReadable t)
include h

theorem complete_sameNext (word : Word32) {a b : Except FaultCode Registers} (hres : SameResult a b) :
    SameNext (complete word a s) (complete word b t) := by
  cases hres with
  | error code => exact (h.raise code word).next
  | ok hr => exact (h.setRegs hr).next

theorem exec_sameNext (i : Instr) : SameNext (exec i s) (exec i t) := by
  rw [exec_eq_complete, exec_eq_complete]
  exact complete_sameNext h _ (commandResult_sameResult h.regs i)

theorem command_sameNext (v : Word32) : SameNext (command v s) (command v t) := by
  unfold command
  split
  · exact exec_sameNext h _
  · exact (h.raise _ v).next

theorem hostRead_sameNext (off : BitVec 8) (size : Nat) : SameNext (hostRead off size s) (hostRead off size t) := by
  unfold hostRead
  rw [← h.regs.read off size]
  split
  · exact (h.respond _).next
  · exact (h.raise _ _).respondFree.next

theorem writeReg_sameNext (reg : Reg) (off : BitVec 8) (v : Word32) :
    SameNext (writeReg reg off v s) (writeReg reg off v t) := by
  cases reg with
  | cmd => exact command_sameNext h v
  | key c => exact (h.setRegs (h.regs.writeKey c v)).next
  | state c => exact (h.setRegs (h.regs.writeState c v)).next
  | status | finfo | result | rk _ | sched _ _ => exact (h.raise .busError _).next

theorem hostWrite_sameNext (off : BitVec 8) (size : Nat) (v : Word32) :
    SameNext (hostWrite off size v s) (hostWrite off size v t) := by
  unfold hostWrite
  rw [← h.regs.fault, ← h.regs.writeTarget off size]
  split
  · exact h.next
  · split
    · exact writeReg_sameNext h _ off v
    · exact (h.raise _ _).next

theorem transact_sameNext (x : Transaction) : SameNext (transact x s) (transact x t) := by
  cases x with
  | read off size => exact hostRead_sameNext h off size
  | write off size v => exact hostWrite_sameNext h off size v
  | reset => exact h.assertReset.next

theorem step_sameNext : SameNext (step s) (step t) := by
  cases hp : s.pending with
  | nil =>
    rw [step_of_idle hp, step_of_idle (h.pending ▸ hp)]
    exact h.next
  | cons x rest =>
    rw [step_of_pending hp, step_of_pending (h.pending ▸ hp)]
    exact transact_sameNext (h.take rest) x

end Transactions

/-- Settles O14: the two steps take the same transaction to related states, and related states hold one response. -/
theorem unreadableContentsAreUnobservable : Obligations.UnreadableContentsAreUnobservable := by
  intro s t h
  obtain ⟨s', t', hs, ht, hsame⟩ := step_sameNext h
  exact ⟨s', t', hs, ht, hsame.response, hsame⟩

end Sys2Proof.Machine

/-! Reset and the ghost bit (70_reset_and_hazards.md R119 to R121). -/

namespace Sys2Proof.Machine

/-- From `s` to `t` the ghost bit is kept and no fault is taken, or the ghost bit is set and FAULT = 1 (R121). -/
def GhostFollowsFault (s t : State) : Prop :=
  (t.everFaulted = s.everFaulted ∧ (t.regs.fault = true → s.regs.fault = true)) ∨
    (t.everFaulted = true ∧ t.regs.fault = true)

theorem State.raise_ghost (s : State) (code : FaultCode) (info : Word32) :
    GhostFollowsFault s (s.raise code info) := by
  rcases s.raise_eq code info with ⟨-, heq⟩ | ⟨-, heq⟩ <;> rw [heq]
  · exact .inl ⟨rfl, id⟩
  · exact .inr ⟨rfl, rfl⟩

theorem exec_ghost {i : Instr} {s t : State} (h : exec i s = .next t) : GhostFollowsFault s t := by
  rcases exec_eq_next h with ⟨q, hq, rfl⟩ | ⟨code, -, rfl⟩
  · obtain ⟨hfault, -, -⟩ := (commandResult_frame hq).record
    exact .inl ⟨rfl, hfault.symm.trans⟩
  · exact s.raise_ghost code _

theorem command_ghost {v : Word32} {s t : State} (h : command v s = .next t) : GhostFollowsFault s t := by
  rcases command_eq_next h with ⟨i, -, hi⟩ | ⟨e, -, rfl⟩
  · exact exec_ghost hi
  · exact s.raise_ghost _ v

theorem hostRead_ghost {off : BitVec 8} {size : Nat} {s t : State} (h : hostRead off size s = .next t) :
    GhostFollowsFault s t := by
  rcases hostRead_eq_next h with ⟨v, -, rfl⟩ | ⟨code, -, rfl⟩
  · exact .inl ⟨rfl, id⟩
  · exact s.raise_ghost code _

theorem hostWrite_ghost {off : BitVec 8} {size : Nat} {v : Word32} {s t : State}
    (h : hostWrite off size v s = .next t) : GhostFollowsFault s t := by
  rcases hostWrite_eq_next h with ⟨-, rfl⟩ | ⟨-, hcmd | ⟨c, rfl⟩ | ⟨c, rfl⟩ | ⟨code, -, rfl⟩⟩
  · exact .inl ⟨rfl, id⟩
  · exact command_ghost hcmd
  · exact .inl ⟨rfl, id⟩
  · exact .inl ⟨rfl, id⟩
  · exact s.raise_ghost code _

theorem transact_ghost {x : Transaction} {s t : State} (h : transact x s = .next t) : GhostFollowsFault s t := by
  cases x with
  | read off size => exact hostRead_ghost h
  | write off size v => exact hostWrite_ghost h
  | reset => exact Host.Outcome.next.inj h ▸ .inl ⟨rfl, nofun⟩

theorem step_ghost {s t : State} (h : step s = .next t) : GhostFollowsFault s t := by
  cases hp : s.pending with
  | nil =>
    rw [step_of_idle hp] at h
    exact Host.Outcome.next.inj h ▸ .inl ⟨rfl, id⟩
  | cons x rest =>
    rw [step_of_pending hp] at h
    exact transact_ghost (s := s.take rest) h

/-- Settles O13, by what a step does to the ghost bit: it is kept where no fault is taken, and else set. -/
theorem everFaultedIsSticky : Obligations.EverFaultedIsSticky := by
  intro s t h
  rcases step_ghost h with ⟨hkept, hfault⟩ | ⟨hset, hfault⟩
  · refine ⟨hkept.trans, fun hs ht => ?_, fun ht => .inl (hkept.symm.trans ht)⟩
    rw [hfault ht] at hs
    cases hs
  · exact ⟨fun _ => hset, fun _ _ => hset, fun _ => .inr hfault⟩

/-- The control and status fields of the registers after a reset, and STATUS as the word they make (R120). -/
theorem Registers.reset_control (n : Nat) :
    (Registers.reset n).keyWv = 0 ∧ (Registers.reset n).stateWv = 0 ∧ (Registers.reset n).rkValid = false ∧
      (Registers.reset n).kxPos = 0 ∧ (Registers.reset n).schedValid = false ∧
      (Registers.reset n).resultValid = false ∧ (Registers.reset n).fault = false ∧
      (Registers.reset n).fcode = .none ∧ (Registers.reset n).finfo = 0 ∧ (Registers.reset n).busy = false ∧
      (Registers.reset n).status = 0 :=
  ⟨rfl, rfl, rfl, rfl, rfl, rfl, rfl, rfl, rfl, rfl,
    by simp [Registers.status, Registers.reset, flag32, FaultCode.bits]⟩

/-- Settles O19: the step is the reset transaction, which leaves the registers of a reset, with its own number. -/
theorem resetClearsControlState : Obligations.ResetClearsControlState := by
  intro s rest hp
  obtain ⟨hkeyWv, hstateWv, hrkValid, hkxPos, hschedValid, hresultValid, hfault, hfcode, hfinfo, hbusy, hstatus⟩ :=
    Registers.reset_control s.freeDraws
  exact ⟨(s.take rest).assertReset, step_of_pending hp, hkeyWv, hstateWv, hrkValid, hkxPos, hschedValid, hresultValid,
    hfault, hfcode, hfinfo, hbusy, hstatus, rfl, rfl⟩

/-- Settles O20: `State.reset` holds the registers of reset number 0. -/
theorem resetStateValues : Obligations.ResetStateValues := Registers.reset_control 0

end Sys2Proof.Machine
